-- ==== Sys2Proof/Word.lean ====
section
/-! DEFINITION. The byte, the only bit-level datum of the block (00_scope.md section 6: a byte is 8 bits).
Addresses, lengths, handler identifiers and return values have parameter widths (R6) and are used only by
comparison, addition on natural numbers and field extraction (R47, R75, R81), so they are natural numbers
below two to their width. -/

namespace Sys2Proof

/-- One byte of the channel or of memory. -/
abbrev Byte := BitVec 8

end Sys2Proof
end

