-- ==== Sys2Proof/Syntax.lean ====
section
/-! DEFINITION. The instructions (one constructor per row of spec/opcode_table.json), the ports a word can be
read from, and the moves of the agents (R9, R178) that the state's schedule is made of. -/

namespace Sys2Proof

/-- TXMODE (R17): whether the write in progress is framed or raw. -/
inductive TxMode where
  | framed
  | raw
  deriving DecidableEq, Repr, Inhabited

/-- DSTATE (R20): outside a frame, inside a frame, inside a frame after an `ESCAPE`. -/
inductive DecState where
  | hunt
  | data
  | esc
  deriving DecidableEq, Repr, Inhabited

/-- Where a word is read from: the four formats CMD (R72), WIRE (R61), PAY (R62, R70) and EVT (R77). A WIRE byte
is also read together with the decoder's state, which gives the transition rows DEC_* (R136). -/
inductive Source where
  | cmd
  | wire
  | decoder (st : DecState)
  | pay (mode : TxMode)
  | evt
  deriving DecidableEq, Repr

/-- The instructions: the rows of spec/opcode_table.json. -/
inductive Instr where
  /-- FRAME_WRITE (R85). -/
  | frameWrite (addr len : Nat)
  /-- RAW_WRITE (R100). -/
  | rawWrite (addr len : Nat)
  /-- REGISTER (R110). -/
  | register (hid : Nat)
  /-- CMD_RESERVED: `op == 11` (R74); `payload` is the rest of the word. -/
  | cmdReserved (payload : Nat)
  /-- W_SYNC (R136). -/
  | wSync
  /-- W_ESCAPE (R136). -/
  | wEscape
  /-- W_LIT (R136): any other byte. -/
  | wLit (b : Byte)
  /-- DEC_HUNT_SYNC (R137). -/
  | decHuntSync
  /-- DEC_HUNT_OTHER (R138). -/
  | decHuntOther (b : Byte)
  /-- DEC_DATA_SYNC (R139). -/
  | decDataSync
  /-- DEC_DATA_ESCAPE (R140). -/
  | decDataEscape
  /-- DEC_DATA_LIT (R141). -/
  | decDataLit (b : Byte)
  /-- DEC_ESC_SYNC (R142). -/
  | decEscSync
  /-- DEC_ESC_OTHER (R143). -/
  | decEscOther (b : Byte)
  /-- P_SYNC (R88). -/
  | pSync
  /-- P_ESCAPE (R88). -/
  | pEscape
  /-- P_PLAIN (R87). -/
  | pPlain (b : Byte)
  /-- P_RAW (R101). -/
  | pRaw (b : Byte)
  /-- IRQ_RX (R116); `other` is the flag OTHERIFG, which the row leaves open. -/
  | irqRx (other : Bool)
  /-- IRQ_FOREIGN (R115). -/
  | irqForeign
  /-- IRQ_NONE (R164, R115). -/
  | irqNone
  deriving DecidableEq, Repr

/-- What an external handler hands back at the callback port (R78, R120): its return value, its new private
state, and the bytes it wrote to memory, in order. -/
structure HandlerAnswer where
  ret : Nat
  hstate : List Byte
  writes : List (Nat × Byte)
  deriving DecidableEq, Repr, Inhabited

/-- Values of the block-owned elements that are unspecified after a reset (R196). -/
structure HoldDraw where
  txmode : TxMode
  txbase : Nat
  txlen : Nat
  txidx : Nat
  txcur : Byte
  rxbyte : Byte
  retval : Nat
  deriving DecidableEq, Repr, Inhabited

/-- One step of one agent, with every choice that agent makes (R178). -/
inductive Move where
  /-- The host presents a command word at the command port (30_encoding.md section 5). -/
  | present (w : Nat)
  /-- The main-line agent takes its next step: acceptance or a TX engine step (R85 to R90, R100, R101, R110). -/
  | mainline
  /-- The interrupt agent takes its next step (R164, R115 to R118, R168). -/
  | interrupt
  /-- The external handler being called returns (R117, R120). -/
  | cbDone (a : HandlerAnswer)
  /-- TXACK (R98). -/
  | txAck
  /-- RX v (R174 to R176); `draw` is what the receive register holds after an overrun, `held` whether a byte that
  arrives during the interrupt context is kept. -/
  | rx (v draw : Byte) (held : Bool)
  /-- FOREIGN 0 or FOREIGN 1 (R177). -/
  | foreign (b : Bool)
  /-- SLEEP (R173). -/
  | sleep
  /-- Main-line software writes a byte of the outbound buffer between operations (R27, R171). -/
  | store (addr : Nat) (v : Byte)
  /-- The reset input is asserted (R200); `d` is what the unspecified elements then hold (R196). -/
  | rst (d : HoldDraw)
  deriving DecidableEq, Repr, Inhabited

end Sys2Proof
end

