-- ==== Sys2Proof/Config.lean ====
section
/-! DEFINITION. What an implementation fixes (R2 to R6), and the one free value of the model: the order in which
the agents move (R178). -/

namespace Sys2Proof

/-- A range of addresses or identifiers: `base`, `base + 1`, ..., `base + size - 1`. -/
structure Region where
  base : Nat
  size : Nat
  deriving DecidableEq, Repr

/-- The parameters of R6, fixed for a whole run. `handlers` lists the identifiers the external bank defines
(R120), `holes` the addresses at which `Readable` is false (R41); `decCap = none` means unbounded (R6). -/
structure Config where
  sync : Byte
  escape : Byte
  addrW : Nat
  lenW : Nat
  hidW : Nat
  retW : Nat
  decCap : Option Nat
  handlers : List Region
  holes : List Region
  deriving DecidableEq, Repr

/-- XMASK (R4): the fixed escape mask, only bit 5 set. -/
def xmask : Byte := 0x20#8

/-- The defaults of R6. DESIGN CHOICE, log entry 8: R6 gives no default for DEC_CAP and HANDLERS, nor R41 for
`Readable`; here the buffer is unbounded, every external identifier is defined and every address readable. -/
def Config.standard : Config where
  sync := 0x7E#8
  escape := 0x7D#8
  addrW := 16
  lenW := 16
  hidW := 16
  retW := 8
  decCap := none
  handlers := [⟨2, 65534⟩]
  holes := []

/-- The free schedule: which agent moves at the `n`-th moment for which the state's queue names none, and what
that agent chooses (R178, R175, R176). It has no body, so nothing can be proved of it: a claim about a run that
draws from it is a claim about every schedule. DESIGN CHOICE, log entry 1. -/
opaque Config.freeMove : Nat → Move

end Sys2Proof
end

