-- ==== Sys2Proof/WellFormed.lean ====
section
/-! DEFINITION. Which terms of `Instr` are instructions of the hardware: operand widths (R72), the address range
of a write (R47), the class of a byte (R61, R62), and that `op == 11` is no command (R74). -/

namespace Sys2Proof

/-- The operands of a write command fit their fields (R72) and no address passes the top of memory (R47). -/
def writeWellFormed (c : Config) (addr len : Nat) : Bool :=
  decide (addr < 2 ^ c.addrW) && decide (len < 2 ^ c.lenW) && decide (addr + len ≤ 2 ^ c.addrW)

/-- Well-formedness of an instruction under the parameters `c`. -/
def Instr.wellFormed (c : Config) : Instr → Bool
  | .frameWrite addr len => writeWellFormed c addr len
  | .rawWrite addr len => writeWellFormed c addr len
  | .register hid => decide (hid < 2 ^ c.hidW)
  | .cmdReserved _ => false
  | .wSync => true
  | .wEscape => true
  | .wLit b => b != c.sync && b != c.escape
  | .decHuntSync => true
  | .decHuntOther b => b != c.sync
  | .decDataSync => true
  | .decDataEscape => true
  | .decDataLit b => b != c.sync && b != c.escape
  | .decEscSync => true
  | .decEscOther b => b != c.sync
  | .pSync => true
  | .pEscape => true
  | .pPlain b => b != c.sync && b != c.escape
  | .pRaw _ => true
  | .irqRx _ => true
  | .irqForeign => true
  | .irqNone => true

end Sys2Proof
end

