-- ==== Sys2Proof/Decode.lean ====
section
/-! DEFINITION. Decoding a word of each format into an instruction, total and rejecting by name, and the encoder
written from the same tables (R61, R62, R70, R72 to R75, R77, R136). -/

namespace Sys2Proof

/-- Why a word is no instruction. -/
inductive DecodeError where
  /-- The word has more bits than its port (R61, R72, R77). -/
  | tooWide
  /-- A reserved bit of a command word is 1 (R74). -/
  | reservedBit
  deriving DecidableEq, Repr

/-- P_W (R72): the width of a command word below its `op` field. -/
def Config.payloadW (c : Config) : Nat := max (c.addrW + c.lenW) c.hidW

/-- CMD_W (R72). -/
def Config.cmdW (c : Config) : Nat := 2 + c.payloadW

/-- The field `v[lo+n-1 : lo]`. -/
def bitField (v lo n : Nat) : Nat := v / 2 ^ lo % 2 ^ n

/-- The CMD format (R72 to R75). -/
def decodeCommand (c : Config) (w : Nat) : Except DecodeError Instr :=
  if 2 ^ c.cmdW ≤ w then .error .tooWide else
  let op := bitField w c.payloadW 2
  let payload := bitField w 0 c.payloadW
  let addr := bitField w c.lenW c.addrW
  let len := bitField w 0 c.lenW
  let writeReserved := bitField w (c.addrW + c.lenW) (c.payloadW - (c.addrW + c.lenW))
  let registerReserved := bitField w c.hidW (c.payloadW - c.hidW)
  if op = 0 then
    if writeReserved = 0 then .ok (.frameWrite addr len) else .error .reservedBit
  else if op = 1 then
    if writeReserved = 0 then .ok (.rawWrite addr len) else .error .reservedBit
  else if op = 2 then
    if registerReserved = 0 then .ok (.register (bitField w 0 c.hidW)) else .error .reservedBit
  else .ok (.cmdReserved payload)

/-- The class of a wire byte (R61). -/
def decodeWire (c : Config) (b : Byte) : Instr :=
  if b = c.sync then .wSync else if b = c.escape then .wEscape else .wLit b

/-- The decoder transition a wire byte selects in a state: the table of R136. -/
def decodeTransition (c : Config) (st : DecState) (b : Byte) : Instr :=
  match st with
  | .hunt => if b = c.sync then .decHuntSync else .decHuntOther b
  | .data =>
    if b = c.sync then .decDataSync else if b = c.escape then .decDataEscape else .decDataLit b
  | .esc => if b = c.sync then .decEscSync else .decEscOther b

/-- The class of a payload byte at the encoder (R62), or the raw payload byte (R70). -/
def decodePayload (c : Config) (mode : TxMode) (b : Byte) : Instr :=
  match mode with
  | .framed => if b = c.sync then .pSync else if b = c.escape then .pEscape else .pPlain b
  | .raw => .pRaw b

/-- The event format (R77): bit 1 is RXIFG, bit 0 is OTHERIFG. -/
def decodeEvent (rxifg otherifg : Bool) : Instr :=
  match rxifg, otherifg with
  | true, other => .irqRx other
  | false, true => .irqForeign
  | false, false => .irqNone

/-- Apply a byte format to a word of one byte. -/
def decodeByte (f : Byte → Instr) (w : Nat) : Except DecodeError Instr :=
  if 2 ^ 8 ≤ w then .error .tooWide else .ok (f (BitVec.ofNat 8 w))

/-- The instruction that the word `w`, read from `src`, stands for. -/
def decode (c : Config) (src : Source) (w : Nat) : Except DecodeError Instr :=
  match src with
  | .cmd => decodeCommand c w
  | .wire => decodeByte (decodeWire c) w
  | .decoder st => decodeByte (decodeTransition c st) w
  | .pay mode => decodeByte (decodePayload c mode) w
  | .evt => if 4 ≤ w then .error .tooWide else .ok (decodeEvent (w.testBit 1) (w.testBit 0))

/-- A command word from its `op` field and the rest (R72). -/
def commandWord (c : Config) (op payload : Nat) : Nat := op * 2 ^ c.payloadW + payload

/-- The two flags of R77 as one word. -/
def eventWord (rxifg otherifg : Bool) : Nat := 2 * rxifg.toNat + otherifg.toNat

/-- The word of an instruction and the port it is read from. -/
def encode (c : Config) : Instr → Source × Nat
  | .frameWrite addr len => (.cmd, commandWord c 0 (addr * 2 ^ c.lenW + len))
  | .rawWrite addr len => (.cmd, commandWord c 1 (addr * 2 ^ c.lenW + len))
  | .register hid => (.cmd, commandWord c 2 hid)
  | .cmdReserved payload => (.cmd, commandWord c 3 payload)
  | .wSync => (.wire, c.sync.toNat)
  | .wEscape => (.wire, c.escape.toNat)
  | .wLit b => (.wire, b.toNat)
  | .decHuntSync => (.decoder .hunt, c.sync.toNat)
  | .decHuntOther b => (.decoder .hunt, b.toNat)
  | .decDataSync => (.decoder .data, c.sync.toNat)
  | .decDataEscape => (.decoder .data, c.escape.toNat)
  | .decDataLit b => (.decoder .data, b.toNat)
  | .decEscSync => (.decoder .esc, c.sync.toNat)
  | .decEscOther b => (.decoder .esc, b.toNat)
  | .pSync => (.pay .framed, c.sync.toNat)
  | .pEscape => (.pay .framed, c.escape.toNat)
  | .pPlain b => (.pay .framed, b.toNat)
  | .pRaw b => (.pay .raw, b.toNat)
  | .irqRx other => (.evt, eventWord true other)
  | .irqForeign => (.evt, eventWord false true)
  | .irqNone => (.evt, eventWord false false)

/-- The width of the port a word is read from. -/
def Source.width (c : Config) : Source → Nat
  | .cmd => c.cmdW
  | .wire => 8
  | .decoder _ => 8
  | .pay _ => 8
  | .evt => 2

/-- The port to which a word of spec/opcode_table.json belongs when only its size is known. DESIGN CHOICE, log
entry 10: more than a byte is a command word; of one byte, 0 to 3 are the event flags and the rest a wire byte. -/
def tableSource (nbits w : Nat) : Source :=
  if 8 < nbits then .cmd else if w < 4 then .evt else .wire

/-- The instruction the decoder reads from a word of the opcode table, at the default parameters (R6). -/
def decodeTableWord (nbits w : Nat) : Option Instr :=
  match decode Config.standard (tableSource nbits w) w with
  | .ok i => some i
  | .error _ => none

end Sys2Proof
end

