-- ==== Sys2Proof/Machine/State.lean ====
section
/-! DEFINITION. The state of the block and its environment (10_state.md), as plain data, the reasons a step can
stop, and the state after the power-on reset (R195 to R198). -/

namespace Sys2Proof.Machine

/-- TXSTATE (R16). -/
inductive TxState where
  | tIdle
  | tOpen
  | tBody
  | tEsc2
  | tClose
  deriving DecidableEq, Repr

/-- DPHASE (R13). -/
inductive DPhase where
  | dIdle
  | dIdent
  | dCall
  | dExit
  deriving DecidableEq, Repr

/-- Why a frame is rejected (R30, R146). -/
inductive DecError where
  | overflow
  | escSync
  deriving DecidableEq, Repr

/-- An element of DECLOG (R30). -/
inductive DecEvent where
  | frame (payload : List Byte)
  | frameError (reason : DecError)
  deriving DecidableEq, Repr

/-- The framing decoder: DSTATE (R20), DERR (R21) and DBUF (R22). -/
structure Decoder where
  state : DecState
  err : Bool
  buf : List Byte
  deriving DecidableEq, Repr

/-- An element of CBLOG (R30): handler identifier, byte, return value. -/
structure CbEntry where
  hid : Nat
  byte : Byte
  ret : Nat
  deriving DecidableEq, Repr

/-- An output pulse of a step (30_encoding.md section 5). -/
inductive Strobe where
  | cmdDone
  | memRd (addr : Nat)
  | txWrite (b : Byte)
  | rxRead
  | wake
  | decFrame (len : Nat)
  | decError (reason : DecError)
  deriving DecidableEq, Repr

/-- A memory: the bytes that differ from `unlistedByte`, at strictly rising addresses. -/
abbrev Memory := List Host.Cell

/-- The state. The names are the spec's in lower case; the last three fields are the model's own. -/
structure State where
  /-- The parameters (R6), which no step changes. -/
  cfg : Config
  /-- CBSLOT (R11), HID_W bits. -/
  cbslot : Nat
  /-- WAKE_REQ (R12). -/
  wakeReq : Bool
  /-- DPHASE (R13). -/
  dphase : DPhase
  /-- RXBYTE (R14). -/
  rxbyte : Byte
  /-- RETVAL (R15), RET_W bits. -/
  retval : Nat
  /-- TXSTATE (R16). -/
  txstate : TxState
  /-- TXMODE (R17). -/
  txmode : TxMode
  /-- TXBASE (R17), ADDR_W bits. -/
  txbase : Nat
  /-- TXLEN (R17), LEN_W bits. -/
  txlen : Nat
  /-- TXIDX (R18), LEN_W bits. -/
  txidx : Nat
  /-- TXCUR (R19). -/
  txcur : Byte
  /-- DSTATE, DERR, DBUF (R20 to R22). -/
  dec : Decoder
  /-- TXRDY (R23). -/
  txrdy : Bool
  /-- RXBUF (R24). -/
  rxbuf : Byte
  /-- RXIFG (R24). -/
  rxifg : Bool
  /-- OTHERIFG (R25). -/
  otherifg : Bool
  /-- LPM (R26). -/
  lpm : Bool
  /-- MEM (R27). -/
  mem : Memory
  /-- HSTATE (R28). -/
  hstate : List Byte
  /-- The command port (30_encoding.md section 5): `some w` while cmd_valid is asserted with cmd_word `w`. -/
  cmdPort : Option Nat
  /-- TXLOG (R30). -/
  txlog : List Byte
  /-- CBLOG (R30). -/
  cblog : List CbEntry
  /-- WAKELOG (R30). -/
  wakelog : List Nat
  /-- DECLOG (R30). -/
  declog : List DecEvent
  /-- The output pulses of the last step, in order. -/
  strobes : List Strobe
  /-- The moves waiting to be made, first first (log entry 1). -/
  inputs : List Move
  /-- How many moves have been drawn from the free schedule (log entry 1). -/
  tick : Nat
  deriving DecidableEq, Repr

/-- Why the machine stops with a fault. -/
inductive Fault where
  /-- fault(INVALID_HANDLER): raised by the interrupt agent in D_CALL when CBSLOT holds an identifier that no
  handler answers to (R121, U6). Safe: it stops where the spec's model stops. -/
  | invalidHandler
  deriving DecidableEq, Repr

/-- Why a situation has no behaviour. -/
inductive Refusal where
  /-- An instruction that has no meaning yet: raised by `exec` only. Safe. -/
  | notModelled (mnemonic : String)
  /-- The parameters violate CFG_OK or a width constraint (R3, R5, R6, U1): raised by `step`. Safe. -/
  | badConfiguration
  /-- The reserved operation selector `op == 11` (R74, U8): raised by CMD_RESERVED. Safe. -/
  | reservedOperation
  /-- A word that is no instruction (R74, U9): raised at its fetch. Safe. -/
  | undecodable (reason : DecodeError)
  /-- A write command whose operands pass their fields or the top of memory (R47, U5): raised at acceptance.
  Safe. -/
  | addressRange
  /-- A handler identifier of more than HID_W bits (R72): raised by REGISTER, never by a decoded word. Safe. -/
  | identifierTooWide
  /-- A move that hands a port or register a value it has no bits for (R72, R78, R40): raised by `step`. Safe. -/
  | notAPortValue
  deriving DecidableEq, Repr

/-- The interface elements whose value at power-on is the environment's (R197). -/
structure EnvDraw where
  txrdy : Bool
  rxbuf : Byte
  rxifg : Bool
  otherifg : Bool
  mem : Memory
  hstate : List Byte
  deriving DecidableEq, Repr

/-- The state after the power-on reset of a build with the parameters `c` (R195 to R198), for given values of the
elements the spec leaves unspecified. -/
def State.powerOn (c : Config) (d : HoldDraw) (e : EnvDraw) : State where
  cfg := c
  cbslot := 0
  wakeReq := false
  dphase := .dIdle
  rxbyte := d.rxbyte
  retval := d.retval
  txstate := .tIdle
  txmode := d.txmode
  txbase := d.txbase
  txlen := d.txlen
  txidx := d.txidx
  txcur := d.txcur
  dec := ⟨.hunt, false, []⟩
  txrdy := e.txrdy
  rxbuf := e.rxbuf
  rxifg := e.rxifg
  otherifg := e.otherifg
  lpm := false
  mem := e.mem
  hstate := e.hstate
  cmdPort := none
  txlog := []
  cblog := []
  wakelog := []
  declog := []
  strobes := []
  inputs := []
  tick := 0

/-- DESIGN CHOICE, log entry 3: the value named for each block-owned element that R196 leaves unspecified. -/
def zeroHold : HoldDraw := ⟨.framed, 0, 0, 0, 0#8, 0#8, 0⟩

/-- DESIGN CHOICE, log entries 4 and 5: the value named for each interface element that R197 leaves
unspecified. -/
def zeroEnv : EnvDraw := ⟨false, 0#8, false, false, [], []⟩

/-- The machine right after the power-on reset, at the default parameters (R6, R195 to R198; log entries 3 to 9
name the values the spec leaves open). -/
def State.reset : State := State.powerOn Config.standard zeroHold zeroEnv

end Sys2Proof.Machine
end

