-- ==== Sys2Proof/Machine/Flags.lean ====
section
/-! DEFINITION. The tests of the block: CFG_OK (R3), the width constraints (R6), ML_RUN (R166), IRQ (R161),
IN_ISR (R13), cmd_ready (30_encoding.md section 5), the test of the return value (R78), the byte classes (R61,
R62), `Readable` (R41) and the capacity test (R144). -/

namespace Sys2Proof.Machine

/-- CFG_OK (R3). -/
def cfgOk (c : Config) : Bool := c.sync != c.escape && c.sync != c.escape ^^^ xmask

/-- The width constraints of R6. -/
def widthsOk (c : Config) : Bool :=
  decide (1 ≤ c.addrW) && decide (1 ≤ c.lenW) && decide (2 ≤ c.hidW) && decide (1 ≤ c.retW)

/-- A configuration of this hardware (R3, R5, R6). -/
def configOk (c : Config) : Bool := cfgOk c && widthsOk c

/-- IN_ISR (R13). -/
def State.inIsr (s : State) : Bool := s.dphase != .dIdle

/-- ML_RUN (R166). -/
def State.mlRun (s : State) : Bool := s.dphase == .dIdle && !s.lpm

/-- The port cmd_ready: a command can be accepted (R85, 30_encoding.md section 5). -/
def State.cmdReady (s : State) : Bool := s.txstate == .tIdle && s.mlRun

/-- IRQ (R161). -/
def State.irq (s : State) : Bool := s.rxifg || s.otherifg

/-- The test of step 5: any bit set (R78, R118). -/
def truthy (ret : Nat) : Bool := ret != 0

/-- `SYNC` or `ESCAPE` (R62). -/
def isReserved (c : Config) (b : Byte) : Bool := b == c.sync || b == c.escape

/-- A number lies in a range of identifiers or addresses. -/
def Region.holds (r : Region) (n : Nat) : Bool := decide (r.base ≤ n) && decide (n < r.base + r.size)

/-- `Readable(addr)` (R41, R56). -/
def readable (c : Config) (a : Nat) : Bool :=
  decide (a < 2 ^ c.addrW) && !c.holes.any (fun r => Region.holds r a)

/-- `|DBUF| < DEC_CAP` (R81, R144). -/
def underCap (c : Config) (n : Nat) : Bool :=
  match c.decCap with
  | none => true
  | some cap => decide (n < cap)

end Sys2Proof.Machine
end

