-- ==== Sys2Proof/Machine/Operands.lean ====
section
/-! DEFINITION. Operand forms: the per-byte transform and the wire format (R62 to R65, R70), the address of a
payload byte (R47), the handler an identifier names (R76), and what a port can carry (R72, R78). -/

namespace Sys2Proof.Machine

/-- `esc` (R62). -/
def escByte (c : Config) (b : Byte) : List Byte :=
  if isReserved c b then [c.escape, b ^^^ xmask] else [b]

/-- The escaped payload, without delimiters (R60). -/
def escBytes (c : Config) : List Byte → List Byte
  | [] => []
  | b :: rest => escByte c b ++ escBytes c rest

/-- The document's `encode` (R63). -/
def frameEncode (c : Config) (payload : List Byte) : List Byte :=
  c.sync :: (escBytes c payload ++ [c.sync])

/-- `unesc` (R65); `none` where it is undefined. -/
def unescBytes (c : Config) : List Byte → Option (List Byte)
  | [] => some []
  | [b] => if b = c.sync ∨ b = c.escape then none else some [b]
  | b :: x :: rest =>
    if b = c.sync then none
    else if b = c.escape then
      if x = c.sync then none else (unescBytes c rest).map (fun t => (x ^^^ xmask) :: t)
    else (unescBytes c (x :: rest)).map (fun t => b :: t)

/-- The document's `decode` on a whole frame (R65); `none` where it is undefined. -/
def frameDecode (c : Config) : List Byte → Option (List Byte)
  | [] => none
  | b :: rest => if b = c.sync ∧ rest.getLast? = some c.sync then unescBytes c rest.dropLast else none

/-- The raw format (R70). -/
def rawEncode (payload : List Byte) : List Byte := payload

/-- The address of the next payload byte (R47). -/
def State.payloadAddr (s : State) : Nat := s.txbase + s.txidx

/-- The operands of a write command fit their fields and no address passes the top of memory (R47, R72). -/
def writeOk (c : Config) (addr len : Nat) : Bool :=
  decide (addr < 2 ^ c.addrW) && decide (len < 2 ^ c.lenW) && decide (addr + len ≤ 2 ^ c.addrW)

/-- H_DEFAULT (R76). -/
def hDefault : Nat := 0

/-- H_DECODER (R76). -/
def hDecoder : Nat := 1

/-- An identifier that the external bank defines (R76, R120). -/
def isExternal (c : Config) (h : Nat) : Bool :=
  decide (2 ≤ h) && c.handlers.any (fun r => Region.holds r h)

/-- The level cb_call with cb_hid and cb_byte (30_encoding.md section 5, R120): the external handler being called
and its byte. DEDUCED, log entry 11: the port holds for as long as the block waits for cb_done. -/
def State.cbCall (s : State) : Option (Nat × Byte) :=
  if s.dphase = .dCall ∧ isExternal s.cfg s.cbslot = true then some (s.cbslot, s.rxbyte) else none

/-- An answer the callback port and the memory can carry (R40, R78). -/
def answerOk (c : Config) (a : HandlerAnswer) : Bool :=
  decide (a.ret < 2 ^ c.retW) && a.writes.all (fun w => decide (w.1 < 2 ^ c.addrW))

/-- Values the unspecified elements have bits for (R10). -/
def holdOk (c : Config) (d : HoldDraw) : Bool :=
  decide (d.txbase < 2 ^ c.addrW) && decide (d.txlen < 2 ^ c.lenW) && decide (d.txidx < 2 ^ c.lenW) &&
    decide (d.retval < 2 ^ c.retW)

end Sys2Proof.Machine
end

