-- ==== Sys2Proof/Machine/Ops.lean ====
section
/-! DEFINITION. The shared operations: memory (R40, R41), the transmit and receive primitives (R91, R116), the
TX engine's acceptance and advance (R85, R87, R100, R101), taking the interrupt and returning from it (R164,
R168), the call of a handler (R117, R118), and reset (R200). -/

namespace Sys2Proof.Machine

/-- What a byte nothing has written reads as. DESIGN CHOICE, log entry 5: the content of MEM at reset is
unspecified (R27). -/
def unlistedByte : Byte := 0x00#8

/-- The byte at an address (R41). -/
def readByte : Memory → Nat → Byte
  | [], _ => unlistedByte
  | (k, v) :: rest, a => if k = a then v else readByte rest a

/-- Write one byte, keeping the canonical form. -/
def writeByte : Memory → Nat → Byte → Memory
  | [], a, v => if v = unlistedByte then [] else [(a, v)]
  | (k, w) :: rest, a, v =>
    if a < k then if v = unlistedByte then (k, w) :: rest else (a, v) :: (k, w) :: rest
    else if a = k then if v = unlistedByte then rest else (a, v) :: rest
    else (k, w) :: writeByte rest a v

/-- Write bytes in order. -/
def writeBytes : Memory → List (Nat × Byte) → Memory
  | m, [] => m
  | m, (a, v) :: rest => writeBytes (writeByte m a v) rest

/-- The canonical form: addresses strictly rising and no entry that an unlisted address reads as. -/
def Memory.wf : Memory → Bool
  | [] => true
  | (k, v) :: rest => v != unlistedByte && rest.all (fun c => decide (k < c.1)) && Memory.wf rest

/-- The payload byte the TX engine is about to read, if its address is readable (R41, R48). -/
def State.payloadByte (s : State) : Option Byte :=
  if readable s.cfg s.payloadAddr then some (readByte s.mem s.payloadAddr) else none

/-- `TxWrite(b)` (R91); its guard is in the steps that use it. -/
def State.txWrite (s : State) (b : Byte) : State :=
  { s with txlog := s.txlog ++ [b], txrdy := false, strobes := s.strobes ++ [.txWrite b] }

/-- The memory read of a body step, seen at the memory port (R41, R45). -/
def State.readPayload (s : State) : State :=
  { s with strobes := s.strobes ++ [.memRd s.payloadAddr] }

/-- Acceptance of a write command (R85, R100). -/
def State.startWrite (s : State) (mode : TxMode) (addr len : Nat) (next : TxState) : State :=
  { s with txmode := mode, txbase := addr, txlen := len, txidx := 0, txstate := next }

/-- The command has completed: the pulse cmd_done. -/
def State.cmdDone (s : State) : State := { s with strobes := s.strobes ++ [.cmdDone] }

/-- A framed payload byte has been completely emitted (R87, R89). -/
def State.advanceFramed (s : State) : State :=
  { s with
    txidx := s.txidx + 1
    txstate := if s.txidx + 1 = s.txlen then .tClose else .tBody }

/-- A raw payload byte has been emitted (R101). -/
def State.advanceRaw (s : State) : State :=
  { s with
    txidx := s.txidx + 1
    txstate := if s.txidx + 1 = s.txlen then .tIdle else .tBody
    strobes := if s.txidx + 1 = s.txlen then s.strobes ++ [.cmdDone] else s.strobes }

/-- The TX engine may write: ML_RUN and TXRDY (R86 to R90, R101). -/
def State.txEnabled (s : State) : Bool := s.mlRun && s.txrdy

/-- Taking the interrupt (R164); its guard is DPHASE == D_IDLE and IRQ. -/
def State.takeInterrupt (s : State) : State := { s with dphase := .dIdent }

/-- The event is not a receive event (R115). -/
def State.ignoreEvent (s : State) : State := { s with dphase := .dExit }

/-- `RxRead()` (R116). -/
def State.rxRead (s : State) : State :=
  { s with rxbyte := s.rxbuf, rxifg := false, dphase := .dCall, strobes := s.strobes ++ [.rxRead] }

/-- The handler has returned `ret`: the log, the latch and the end of the call (R117, R118). -/
def State.finishCall (s : State) (ret : Nat) : State :=
  { s with
    retval := ret
    cblog := s.cblog ++ [⟨s.cbslot, s.rxbyte, ret⟩]
    wakeReq := s.wakeReq || truthy ret
    dphase := .dExit }

/-- Return from the interrupt, sending the wake signal if it is latched (R168). -/
def State.leaveInterrupt (s : State) : State :=
  if s.wakeReq then
    { s with
      wakelog := s.wakelog ++ [s.cblog.length]
      lpm := false
      wakeReq := false
      dphase := .dIdle
      strobes := s.strobes ++ [.wake] }
  else { s with dphase := .dIdle }

/-- The reset input (R200): every block-owned element at its reset value (R195, R196), the unspecified ones at the
values drawn, and LPM at 0 (R26, R197). DEDUCED, log entry 12: LPM is cleared, the other interface elements and
the logs are left alone (R198). -/
def State.warmReset (s : State) (d : HoldDraw) : State :=
  { s with
    cbslot := hDefault
    wakeReq := false
    dphase := .dIdle
    rxbyte := d.rxbyte
    retval := d.retval
    txstate := .tIdle
    txmode := d.txmode
    txbase := d.txbase
    txlen := d.txlen
    txidx := d.txidx
    txcur := d.txcur
    dec := ⟨.hunt, false, []⟩
    lpm := false }

end Sys2Proof.Machine
end

