-- ==== Sys2Proof/Machine/Dispatcher.lean ====
section
/-! DEFINITION. The interrupt events at the identification step (R77, R115, R116), and the steps of the dispatch
that read no word: the default handler (R113) and the answer of an external handler (R120). -/

namespace Sys2Proof.Machine

/-- IRQ_RX: the pending byte is read (R116); OTHERIFG decides nothing (R165). -/
def execIrqRx (other : Bool) (s : State) : Host.Outcome State Fault Refusal :=
  if s.dphase == .dIdent && s.rxifg && s.otherifg == other then .next s.rxRead else .next s

/-- IRQ_FOREIGN: ignored by this block (R115). -/
def execIrqForeign (s : State) : Host.Outcome State Fault Refusal :=
  if s.dphase == .dIdent && !s.rxifg && s.otherifg then .next s.ignoreEvent else .next s

/-- IRQ_NONE: at the identification step R115 applies, since its guard is RXIFG == 0 alone; with the dispatcher
idle the interrupt context is not entered (R164). -/
def execIrqNone (s : State) : Host.Outcome State Fault Refusal :=
  if s.dphase == .dIdent && !s.rxifg && !s.otherifg then .next s.ignoreEvent else .next s

/-- The call of the default handler, which does nothing and returns 0 (R113, R117). -/
def callDefault (s : State) : State := s.finishCall 0

/-- The external handler being called returns (R117, R120). -/
def answerCall (s : State) (a : HandlerAnswer) : State :=
  if s.cbCall.isSome then
    ({ s with hstate := a.hstate, mem := writeBytes s.mem a.writes }).finishCall a.ret
  else s

end Sys2Proof.Machine
end

