-- ==== Sys2Proof/Machine/Framing.lean ====
section
/-! DEFINITION. The framing decoder (43_rx_decoder.md): `dec_append` R144, the seven transitions R137 to R143,
`dec_step` R136, and the wire symbols as the handler H_DECODER receives them (R125). -/

namespace Sys2Proof.Machine

/-- What one call of the decoder gives: its new state, its return value, and the event it reports (R136). -/
structure DecResult where
  dec : Decoder
  ret : Nat
  event : Option DecEvent
  deriving DecidableEq, Repr

/-- `dec_append(v)` (R144). -/
def decAppend (c : Config) (d : Decoder) (v : Byte) : Decoder :=
  if !d.err && underCap c d.buf.length then { d with buf := d.buf ++ [v] } else { d with err := true }

/-- HUNT, `b == SYNC` (R137). -/
def stepHuntSync (_d : Decoder) : DecResult := ⟨⟨.data, false, []⟩, 0, none⟩

/-- HUNT, `b != SYNC` (R138). -/
def stepHuntOther (d : Decoder) : DecResult := ⟨d, 0, none⟩

/-- DATA, `b == SYNC` (R139). -/
def stepDataSync (d : Decoder) : DecResult :=
  if d.err then ⟨{ d with state := .hunt }, 0, some (.frameError .overflow)⟩
  else ⟨{ d with state := .hunt }, 1, some (.frame d.buf)⟩

/-- DATA, `b == ESCAPE` (R140). -/
def stepDataEscape (d : Decoder) : DecResult := ⟨{ d with state := .esc }, 0, none⟩

/-- DATA, `b` plain (R141). -/
def stepDataLit (c : Config) (d : Decoder) (b : Byte) : DecResult := ⟨decAppend c d b, 0, none⟩

/-- ESC, `b == SYNC` (R142). -/
def stepEscSync (d : Decoder) : DecResult := ⟨{ d with state := .hunt }, 0, some (.frameError .escSync)⟩

/-- ESC, `b != SYNC` (R143). -/
def stepEscOther (c : Config) (d : Decoder) (b : Byte) : DecResult :=
  ⟨{ decAppend c d (b ^^^ xmask) with state := .data }, 0, none⟩

/-- `dec_step(b)` (R136), also usable alone (R151). -/
def decStep (c : Config) (d : Decoder) (b : Byte) : DecResult :=
  match d.state with
  | .hunt => if b = c.sync then stepHuntSync d else stepHuntOther d
  | .data => if b = c.sync then stepDataSync d else if b = c.escape then stepDataEscape d else stepDataLit c d b
  | .esc => if b = c.sync then stepEscSync d else stepEscOther c d b

/-- The pulses of a decoder event (R146). -/
def eventStrobes : Option DecEvent → List Strobe
  | none => []
  | some (.frame p) => [.decFrame p.length]
  | some (.frameError r) => [.decError r]

/-- The guard of a call of H_DECODER with the byte `b` (R117, R125). -/
def State.decoderCalled (s : State) (b : Byte) : Bool :=
  s.dphase == .dCall && s.cbslot == hDecoder && s.rxbyte == b

/-- The decoder's results are stored and the call ends (R117, R118, R125). -/
def State.finishDecoder (s : State) (r : DecResult) : State :=
  ({ s with
      dec := r.dec
      declog := s.declog ++ r.event.toList
      strobes := s.strobes ++ eventStrobes r.event }).finishCall r.ret

/-- One transition of the decoder as a step of the block: the call of H_DECODER with the byte `b`, in the decoder
state `st`. -/
def decoderTransition (st : DecState) (b : Byte) (r : DecResult) (s : State) : State :=
  if s.decoderCalled b && s.dec.state == st then s.finishDecoder r else s

/-- DEC_HUNT_SYNC (R137). -/
def execDecHuntSync (s : State) : Host.Outcome State Fault Refusal :=
  .next (decoderTransition .hunt s.cfg.sync (stepHuntSync s.dec) s)

/-- DEC_HUNT_OTHER (R138). -/
def execDecHuntOther (b : Byte) (s : State) : Host.Outcome State Fault Refusal :=
  if b = s.cfg.sync then .next s else .next (decoderTransition .hunt b (stepHuntOther s.dec) s)

/-- DEC_DATA_SYNC (R139). -/
def execDecDataSync (s : State) : Host.Outcome State Fault Refusal :=
  .next (decoderTransition .data s.cfg.sync (stepDataSync s.dec) s)

/-- DEC_DATA_ESCAPE (R140). -/
def execDecDataEscape (s : State) : Host.Outcome State Fault Refusal :=
  .next (decoderTransition .data s.cfg.escape (stepDataEscape s.dec) s)

/-- DEC_DATA_LIT (R141). -/
def execDecDataLit (b : Byte) (s : State) : Host.Outcome State Fault Refusal :=
  if isReserved s.cfg b then .next s else .next (decoderTransition .data b (stepDataLit s.cfg s.dec b) s)

/-- DEC_ESC_SYNC (R142). -/
def execDecEscSync (s : State) : Host.Outcome State Fault Refusal :=
  .next (decoderTransition .esc s.cfg.sync (stepEscSync s.dec) s)

/-- DEC_ESC_OTHER (R143). -/
def execDecEscOther (b : Byte) (s : State) : Host.Outcome State Fault Refusal :=
  if b = s.cfg.sync then .next s else .next (decoderTransition .esc b (stepEscOther s.cfg s.dec b) s)

/-- A wire symbol as H_DECODER receives it: one call of `dec_step` (R125, R136). -/
def wireSymbol (b : Byte) (s : State) : State :=
  if s.decoderCalled b then s.finishDecoder (decStep s.cfg s.dec b) else s

/-- W_SYNC (R136). -/
def execWSync (s : State) : Host.Outcome State Fault Refusal := .next (wireSymbol s.cfg.sync s)

/-- W_ESCAPE (R136). -/
def execWEscape (s : State) : Host.Outcome State Fault Refusal := .next (wireSymbol s.cfg.escape s)

/-- W_LIT (R136): a byte that is neither SYNC nor ESCAPE. -/
def execWLit (b : Byte) (s : State) : Host.Outcome State Fault Refusal :=
  if isReserved s.cfg b then .next s else .next (wireSymbol b s)

end Sys2Proof.Machine
end

