-- ==== Sys2Proof/Machine/Register.lean ====
section
/-! DEFINITION. REGISTER (R110) and the reserved operation selector (R74). -/

namespace Sys2Proof.Machine

/-- REGISTER: any identifier of HID_W bits may be stored (R110). The host waits while cmd_ready is 0 (U13). -/
def execRegister (hid : Nat) (s : State) : Host.Outcome State Fault Refusal :=
  if s.cmdReady then
    if hid < 2 ^ s.cfg.hidW then .next ({ s with cbslot := hid }).cmdDone else .refused .identifierTooWide
  else .next s

/-- CMD_RESERVED: not a command of this hardware; the model refuses it (R74, U8). -/
def execCmdReserved (_payload : Nat) (_s : State) : Host.Outcome State Fault Refusal :=
  .refused .reservedOperation

end Sys2Proof.Machine
end

