-- ==== Sys2Proof/Machine/TxFramer.lean ====
section
/-! DEFINITION. FRAME_WRITE (40_tx_framer.md): acceptance R85, the payload bytes R87 and R88, and the steps that
read no word, R86, R89 and R90. A step whose guard is false leaves the state as it is (log entry 2). -/

namespace Sys2Proof.Machine

/-- The guard of a body step on the payload byte `b` (R87, R88, R101). -/
def State.bodyReady (s : State) (mode : TxMode) (b : Byte) : Bool :=
  s.txstate == .tBody && s.txmode == mode && s.txEnabled && s.payloadByte == some b

/-- FRAME_WRITE: acceptance (R85). The host waits while cmd_ready is 0 (U13). -/
def execFrameWrite (addr len : Nat) (s : State) : Host.Outcome State Fault Refusal :=
  if s.cmdReady then
    if writeOk s.cfg addr len then .next (s.startWrite .framed addr len .tOpen) else .refused .addressRange
  else .next s

/-- The effect of R88 on the reserved byte `b`. -/
def State.emitEscape (s : State) (b : Byte) : State :=
  { s.readPayload.txWrite s.cfg.escape with txcur := b, txstate := .tEsc2 }

/-- P_SYNC: a payload byte equal to SYNC, first half (R88). -/
def execPSync (s : State) : Host.Outcome State Fault Refusal :=
  if s.bodyReady .framed s.cfg.sync then .next (s.emitEscape s.cfg.sync) else .next s

/-- P_ESCAPE: a payload byte equal to ESCAPE, first half (R88). -/
def execPEscape (s : State) : Host.Outcome State Fault Refusal :=
  if s.bodyReady .framed s.cfg.escape then .next (s.emitEscape s.cfg.escape) else .next s

/-- P_PLAIN: a payload byte that is not reserved (R87). -/
def execPPlain (b : Byte) (s : State) : Host.Outcome State Fault Refusal :=
  if s.bodyReady .framed b && !isReserved s.cfg b then .next (s.readPayload.txWrite b).advanceFramed
  else .next s

/-- The opening delimiter (R86). -/
def openFrame (s : State) : State :=
  if s.txstate == .tOpen && s.txEnabled then
    { s.txWrite s.cfg.sync with txstate := if s.txlen = 0 then .tClose else .tBody }
  else s

/-- The second half of an escape pair (R89). -/
def emitOperand (s : State) : State :=
  if s.txstate == .tEsc2 && s.txEnabled then (s.txWrite (s.txcur ^^^ xmask)).advanceFramed else s

/-- The closing delimiter and completion (R90). -/
def closeFrame (s : State) : State :=
  if s.txstate == .tClose && s.txEnabled then ({ s.txWrite s.cfg.sync with txstate := .tIdle }).cmdDone else s

end Sys2Proof.Machine
end

