-- ==== Sys2Proof/Machine/TxRaw.lean ====
section
/-! DEFINITION. RAW_WRITE (41_tx_raw.md): acceptance R100 and the payload bytes R101. -/

namespace Sys2Proof.Machine

/-- RAW_WRITE: acceptance (R100); with `len == 0` the operation completes at once. -/
def execRawWrite (addr len : Nat) (s : State) : Host.Outcome State Fault Refusal :=
  if s.cmdReady then
    if writeOk s.cfg addr len then
      if len = 0 then .next (s.startWrite .raw addr len .tIdle).cmdDone
      else .next (s.startWrite .raw addr len .tBody)
    else .refused .addressRange
  else .next s

/-- P_RAW: a payload byte in raw mode, whatever its value (R101). -/
def execPRaw (b : Byte) (s : State) : Host.Outcome State Fault Refusal :=
  if s.bodyReady .raw b then .next (s.readPayload.txWrite b).advanceRaw else .next s

end Sys2Proof.Machine
end

