-- ==== Sys2Proof/Machine/Dispatch.lean ====
section
/-! DEFINITION. The meaning of every instruction, one arm per row of the opcode table. -/

namespace Sys2Proof.Machine

def exec (i : Instr) (s : State) : Host.Outcome State Fault Refusal :=
  match i with
  | .frameWrite addr len => Sys2Proof.Machine.execFrameWrite addr len s
  | .rawWrite addr len => Sys2Proof.Machine.execRawWrite addr len s
  | .register hid => Sys2Proof.Machine.execRegister hid s
  | .cmdReserved payload => Sys2Proof.Machine.execCmdReserved payload s
  | .wSync => Sys2Proof.Machine.execWSync s
  | .wEscape => Sys2Proof.Machine.execWEscape s
  | .wLit b => Sys2Proof.Machine.execWLit b s
  | .decHuntSync => Sys2Proof.Machine.execDecHuntSync s
  | .decHuntOther b => Sys2Proof.Machine.execDecHuntOther b s
  | .decDataSync => Sys2Proof.Machine.execDecDataSync s
  | .decDataEscape => Sys2Proof.Machine.execDecDataEscape s
  | .decDataLit b => Sys2Proof.Machine.execDecDataLit b s
  | .decEscSync => Sys2Proof.Machine.execDecEscSync s
  | .decEscOther b => Sys2Proof.Machine.execDecEscOther b s
  | .pSync => Sys2Proof.Machine.execPSync s
  | .pEscape => Sys2Proof.Machine.execPEscape s
  | .pPlain b => Sys2Proof.Machine.execPPlain b s
  | .pRaw b => Sys2Proof.Machine.execPRaw b s
  | .irqRx other => Sys2Proof.Machine.execIrqRx other s
  | .irqForeign => Sys2Proof.Machine.execIrqForeign s
  | .irqNone => Sys2Proof.Machine.execIrqNone s

end Sys2Proof.Machine
end

