-- ==== Sys2Proof/Machine/Environment.lean ====
section
/-! DEFINITION. The environment's steps: TXACK (R98), RX v (R174 to R176), FOREIGN (R177), SLEEP (R173), the host
at the command port (30_encoding.md section 5) and at the outbound buffer (R27, R171). -/

namespace Sys2Proof.Machine

/-- TXACK (R98): its guard TXRDY == 0 makes no difference to the result. -/
def txAck (s : State) : State := { s with txrdy := true }

/-- RX v: overrun R175, normal arrival R174, arrival during the interrupt context R176. -/
def receive (v draw : Byte) (held : Bool) (s : State) : State :=
  if s.rxifg then { s with rxbuf := draw }
  else if s.dphase == .dIdle || held then { s with rxbuf := v, rxifg := true }
  else s

/-- FOREIGN (R177). -/
def setForeign (b : Bool) (s : State) : State := { s with otherifg := b }

/-- SLEEP (R173). -/
def enterSleep (s : State) : State :=
  if s.mlRun && s.txstate == .tIdle then { s with lpm := true } else s

/-- The host presents a command word; while another is waiting, the host waits (U13). -/
def presentCommand (w : Nat) (s : State) : State :=
  if s.cmdPort.isNone then { s with cmdPort := some w } else s

/-- Main-line software writes a byte of the buffer, between operations (R27, R171). -/
def storeByte (a : Nat) (v : Byte) (s : State) : State :=
  if s.mlRun && s.txstate == .tIdle then { s with mem := writeByte s.mem a v } else s

end Sys2Proof.Machine
end

