-- ==== Sys2Proof/Machine/Agents.lean ====
section
/-! DEFINITION. What one move does: the word it fetches, if any, is decoded and executed; a move that fetches none
is a step of an agent that reads no word, or of the environment (R9, R178). -/

namespace Sys2Proof.Machine

/-- The word that the moving agent reads next: the command at the port when it can be accepted (R85), the payload
byte in T_BODY (R87, R101), the event flags at the identification step (R77), the received byte when the decoder
is called (R125). -/
def fetch (m : Move) (s : State) : Option (Source × Nat) :=
  match m with
  | .mainline =>
    if s.cmdReady then s.cmdPort.map (fun w => (.cmd, w))
    else if s.txstate == .tBody && s.mlRun then s.payloadByte.map (fun b => (.pay s.txmode, b.toNat))
    else none
  | .interrupt =>
    if s.dphase = .dIdent then some (.evt, eventWord s.rxifg s.otherifg)
    else if s.dphase = .dCall ∧ s.cbslot = hDecoder then some (.wire, s.rxbyte.toNat)
    else none
  | _ => none

/-- Taking a word from its port: a command word leaves the command port, nothing else changes. -/
def consume (src : Source) (s : State) : State :=
  if src = .cmd then { s with cmdPort := none } else s

/-- A main-line step that reads no word: R86, R89, R90. -/
def mainlineStep (s : State) : State :=
  match s.txstate with
  | .tIdle => s
  | .tOpen => openFrame s
  | .tBody => s
  | .tEsc2 => emitOperand s
  | .tClose => closeFrame s

/-- An interrupt step that reads no word: entry R164, the default handler R113, waiting for an external handler
(R120, R122), the invalid identifier (R121), exit R168. -/
def interruptStep (s : State) : Host.Outcome State Fault Refusal :=
  match s.dphase with
  | .dIdle => if s.irq then .next s.takeInterrupt else .next s
  | .dIdent => .next s
  | .dCall =>
    if s.cbslot = hDefault then .next (callDefault s)
    else if isExternal s.cfg s.cbslot then .next s
    else .fault .invalidHandler
  | .dExit => .next s.leaveInterrupt

/-- A move that fetches no word. -/
def act (m : Move) (s : State) : Host.Outcome State Fault Refusal :=
  match m with
  | .present w => if w < 2 ^ s.cfg.cmdW then .next (presentCommand w s) else .refused .notAPortValue
  | .mainline => .next (mainlineStep s)
  | .interrupt => interruptStep s
  | .cbDone a => if answerOk s.cfg a then .next (answerCall s a) else .refused .notAPortValue
  | .txAck => .next (txAck s)
  | .rx v draw held => .next (receive v draw held s)
  | .foreign b => .next (setForeign b s)
  | .sleep => .next (enterSleep s)
  | .store a v => if a < 2 ^ s.cfg.addrW then .next (storeByte a v s) else .refused .notAPortValue
  | .rst d => if holdOk s.cfg d then .next (s.warmReset d) else .refused .notAPortValue

/-- One move. -/
def perform (m : Move) (s : State) : Host.Outcome State Fault Refusal :=
  match fetch m s with
  | some (src, w) =>
    match decode s.cfg src w with
    | .ok i => exec i (consume src s)
    | .error e => .refused (.undecodable e)
  | none => act m s

/-- The move that is made next: the first of the queue, else the free schedule's (log entry 1). -/
def nextMove (s : State) : Move :=
  match s.inputs with
  | m :: _ => m
  | [] => Config.freeMove s.tick

/-- The state at the start of a step: the move is taken from the queue, or counted, and the pulses of the step
before are over. -/
def beginStep (s : State) : State :=
  match s.inputs with
  | _ :: rest => { s with inputs := rest, strobes := [] }
  | [] => { s with tick := s.tick + 1, strobes := [] }

/-- Put a word where the next step reads it, and all that the reading takes. -/
def placeFetchWord (src : Source) (w : Nat) (s : State) : State :=
  match src with
  | .cmd =>
    { s with cmdPort := some w, txstate := .tIdle, dphase := .dIdle, lpm := false, inputs := .mainline :: s.inputs }
  | .evt =>
    { s with
      rxifg := w.testBit 1
      otherifg := w.testBit 0
      dphase := .dIdent
      inputs := .interrupt :: s.inputs }
  | _ =>
    { s with
      rxbyte := BitVec.ofNat 8 w
      cbslot := hDecoder
      dphase := .dCall
      inputs := .interrupt :: s.inputs }

end Sys2Proof.Machine
end

