-- ==== Sys2Proof/Machine/Step.lean ====
section
/-! DEFINITION. One step: the next move, made by its agent. -/

namespace Sys2Proof.Machine

/-- One step. A configuration without CFG_OK has no behaviour (R5, U1). -/
def step (s : State) : Host.Outcome State Fault Refusal :=
  if configOk s.cfg then perform (nextMove s) (beginStep s) else .refused .badConfiguration

/-- `s` with the word `w` of the opcode table where the next step reads it (log entry 10). -/
def State.withFetchWord (s : State) (nbits w : Nat) : State := placeFetchWord (tableSource nbits w) w s

end Sys2Proof.Machine
end

