-- ==== Sys2Proof/Safety.lean ====
section
/-! DEFINITION. The terms claims are stated in: the invariant of the machine, what a write still has to emit, runs
inside one write operation, the streaming decoder over a sequence, the external bank as a relation, and the named
premises of R178. -/

namespace Sys2Proof.Machine

/-- What holds in every state the machine can be in (R10, R12, R16 to R18, R22, R173 and the memory's form). -/
structure State.Inv (s : State) : Prop where
  /-- CFG_OK and the width constraints (R3, R6). -/
  config : configOk s.cfg = true
  /-- CBSLOT has HID_W bits (R10). -/
  slot : s.cbslot < 2 ^ s.cfg.hidW
  /-- RETVAL has RET_W bits (R10). -/
  ret : s.retval < 2 ^ s.cfg.retW
  /-- TXBASE has ADDR_W bits (R10). -/
  base : s.txbase < 2 ^ s.cfg.addrW
  /-- TXLEN has LEN_W bits (R10). -/
  len : s.txlen < 2 ^ s.cfg.lenW
  /-- TXIDX has LEN_W bits (R10, R18). -/
  idx : s.txidx < 2 ^ s.cfg.lenW
  /-- The memory is in its canonical form. -/
  memory : Memory.wf s.mem = true
  /-- The memory lies inside the address space (R40). -/
  inside : ∀ a v, (a, v) ∈ s.mem → a < 2 ^ s.cfg.addrW
  /-- A waiting command word has CMD_W bits (R72). -/
  command : ∀ w, s.cmdPort = some w → w < 2 ^ s.cfg.cmdW
  /-- The buffer of a write in progress does not pass the top of memory (R47). -/
  range : s.txstate ≠ .tIdle → s.txbase + s.txlen ≤ 2 ^ s.cfg.addrW
  /-- T_OPEN belongs to a framed write that has read nothing (R85). -/
  opening : s.txstate = .tOpen → s.txmode = .framed ∧ s.txidx = 0
  /-- In T_BODY a payload byte is left (R87). -/
  body : s.txstate = .tBody → s.txidx < s.txlen
  /-- In T_ESC2 a framed write holds a reserved byte (R88). -/
  pair : s.txstate = .tEsc2 → s.txmode = .framed ∧ s.txidx < s.txlen ∧ isReserved s.cfg s.txcur = true
  /-- In T_CLOSE a framed write has emitted every payload byte (R16). -/
  closing : s.txstate = .tClose → s.txmode = .framed ∧ s.txidx = s.txlen
  /-- The processor never sleeps inside a write (R173). -/
  awake : s.lpm = true → s.txstate = .tIdle
  /-- A latched wake request waits at the interrupt exit, for a nonzero return value (R12, R118). -/
  latch : s.wakeReq = true → s.dphase = .dExit ∧ s.retval ≠ 0
  /-- DBUF holds at most DEC_CAP bytes (R22). -/
  buffer : ∀ cap, s.cfg.decCap = some cap → s.dec.buf.length ≤ cap
  /-- After an overflow DBUF is full (R144). -/
  overflow : s.dec.err = true → s.cfg.decCap = some s.dec.buf.length

/-- The bytes at `a`, `a + 1`, ..., `a + n - 1`. -/
def bufferBytes (m : Memory) : Nat → Nat → List Byte
  | _, 0 => []
  | a, n + 1 => readByte m a :: bufferBytes m (a + 1) n

/-- The addresses that the pulses of a step read, at the memory port (R41, R45). -/
def addressesRead : List Strobe → List Nat
  | [] => []
  | .memRd a :: rest => a :: addressesRead rest
  | _ :: rest => addressesRead rest

/-- What the write in progress still has to emit, if the buffer does not change (R93, R102). -/
def State.remaining (s : State) : List Byte :=
  match s.txstate with
  | .tIdle => []
  | .tOpen => frameEncode s.cfg (bufferBytes s.mem s.txbase s.txlen)
  | .tBody =>
    match s.txmode with
    | .framed => escBytes s.cfg (bufferBytes s.mem s.payloadAddr (s.txlen - s.txidx)) ++ [s.cfg.sync]
    | .raw => bufferBytes s.mem s.payloadAddr (s.txlen - s.txidx)
  | .tEsc2 =>
    (s.txcur ^^^ xmask) ::
      (escBytes s.cfg (bufferBytes s.mem (s.payloadAddr + 1) (s.txlen - s.txidx - 1)) ++ [s.cfg.sync])
  | .tClose => [s.cfg.sync]

/-- The next step is no assertion of rst. -/
def State.noReset (s : State) : Prop := ∀ d, nextMove s ≠ .rst d

/-- The step from `s` to `t` leaves the buffer of the write in progress alone (R93, R209). -/
def bufferKept (s t : State) : Prop :=
  ∀ a, s.txbase ≤ a → a < s.txbase + s.txlen → readByte t.mem a = readByte s.mem a

/-- Steps, of any agents in any order but without a reset, taken while a write is in progress. With
`keep = true` no step writes the buffer. -/
inductive WriteRun (keep : Bool) : State → State → Prop where
  | done (s : State) : WriteRun keep s s
  | step {s t u : State} (busy : s.txstate ≠ .tIdle) (live : s.noReset) (next : Machine.step s = .next t)
      (kept : keep = true → bufferKept s t) (rest : WriteRun keep t u) : WriteRun keep s u

/-- How many payload bytes are reserved: the number r of R66. -/
def reservedCount (c : Config) (payload : List Byte) : Nat := payload.countP (isReserved c)

/-- The schedule in which the transmit hardware accepts each byte at once: `n` times TXACK, then main-line. -/
def ackSchedule : Nat → List Move
  | 0 => []
  | n + 1 => .txAck :: .mainline :: ackSchedule n

/-- The receive hardware delivers each byte in turn and each is dispatched at once: the line syntax
`RX v` then `IRQ` of R79. -/
def dispatchSchedule : List Byte → List Move
  | [] => []
  | b :: rest => .rx b 0#8 true :: .interrupt :: .interrupt :: .interrupt :: .interrupt :: dispatchSchedule rest

/-- `dec_step` over a sequence of bytes (R151): the final state, the return values, the events. -/
def decFold (c : Config) (d : Decoder) : List Byte → Decoder × List Nat × List DecEvent
  | [] => (d, [], [])
  | b :: rest =>
    let r := decStep c d b
    let t := decFold c r.dec rest
    (t.1, r.ret :: t.2.1, r.event.toList ++ t.2.2)

/-- A payload fits the decoder's buffer (R147). -/
def fits (c : Config) (payload : List Byte) : Prop := ∀ cap, c.decCap = some cap → payload.length ≤ cap

/-- The external bank HANDLERS: for each identifier, which answers the handler may give in its private state, the
memory, and the byte it is called with (R120). -/
abbrev HandlerBank := Nat → List Byte → Memory → Byte → HandlerAnswer → Prop

/-- An answer is one the bank allows the handler being called (R120). -/
def admitted (bank : HandlerBank) (s : State) (a : HandlerAnswer) : Prop :=
  bank s.cbslot s.hstate s.mem s.rxbyte a

/-- The document's scenario 3: a handler that returns 1 for odd bytes and 0 for even ones (R118, R126). -/
def oddBank : HandlerBank := fun _ _ _ b a => a.ret = b.toNat % 2

/-- A run in which `schedule` says each move: from every state the step makes the move and gives the next state
(R178). -/
def isRun (schedule : Nat → Move) (run : Nat → State) : Prop :=
  ∀ n, step { run n with inputs := [schedule n] } = .next (run (n + 1))

/-- `m` is a step of the interrupt agent whose guard holds in `s`: entry R164, R115 or R116, R117 with R118, exit
R168. The call of an external handler ends with the move in which the handler of `bank` answers; where `bank` gives
the handler no answer, the agent has no step (R122). -/
def dispatcherStep (bank : HandlerBank) (s : State) (m : Move) : Prop :=
  match s.dphase with
  | .dIdle => s.irq = true ∧ m = .interrupt
  | .dIdent => m = .interrupt
  | .dCall =>
    ((s.cbslot = hDefault ∨ s.cbslot = hDecoder) ∧ m = .interrupt) ∨
      (isExternal s.cfg s.cbslot = true ∧ ∃ a, admitted bank s a ∧ answerOk s.cfg a = true ∧ m = .cbDone a)
  | .dExit => m = .interrupt

/-- `m` is TXACK and its guard holds in `s` (R98). -/
def txAckStep (s : State) (m : Move) : Prop := s.txrdy = false ∧ m = .txAck

/-- Weak fairness of the steps `enabled` of one agent (R178): if from some moment on the agent always has a step, it
takes one. -/
def weaklyFair (enabled : State → Move → Prop) (schedule : Nat → Move) (run : Nat → State) : Prop :=
  ∀ n, (∀ k, n ≤ k → ∃ m, enabled (run k) m) → ∃ k, n ≤ k ∧ enabled (run k) (schedule k)

/-- FAIR_TXACK (R98, R178). -/
def FairTxAck : (Nat → Move) → (Nat → State) → Prop := weaklyFair txAckStep

/-- FAIR_IRQ (R178): an interrupt continuously pending is eventually entered, and the dispatcher's own steps are
eventually taken, the end of the call of an external handler among them. -/
def FairIrq (bank : HandlerBank) : (Nat → Move) → (Nat → State) → Prop := weaklyFair (dispatcherStep bank)

/-- FOREIGN_QUIESCENT (R177, R178): the foreign cause is not pending for ever. -/
def ForeignQuiescent (run : Nat → State) : Prop := ∀ n, ∃ k, n ≤ k ∧ (run k).otherifg = false

end Sys2Proof.Machine
end

