-- ==== Sys2Proof/Certificates/Slice0/Obligations.lean ====
section
/-! DEFINITION. The statements for the provers. Each docstring names the rules it formalises. -/

open Sys2Proof Sys2Proof.Machine

/-! Encoding. -/

/-- Decoding the word of a well-formed instruction gives the instruction back (R61, R62, R72, R73, R75, R77,
R136). -/
def Obligations.DecodeOfEncodeIsTheInstruction : Prop :=
  ∀ (c : Config) (i : Instr), configOk c = true → i.wellFormed c = true →
    decode c (encode c i).1 (encode c i).2 = .ok i

/-- Every word the decoder accepts is the word of the instruction it gives: no bit of a word is ignored. -/
def Obligations.EncodeOfDecodeIsTheWord : Prop :=
  ∀ (c : Config) (src : Source) (w : Nat) (i : Instr), decode c src w = .ok i → encode c i = (src, w)

/-- Words written out from the tables of R61, R72, R73 and R77 decode to their rows, at the default parameters.
How a one-byte word is told apart is the model's choice (log entry 10). -/
def Obligations.TableWordsDecodeToTheirRows : Prop :=
  decodeTableWord 40 0x002000003 = some (.frameWrite 0x0200 3) ∧
  decodeTableWord 40 0x103000002 = some (.rawWrite 0x0300 2) ∧
  decodeTableWord 40 0x200000001 = some (.register 1) ∧
  decodeTableWord 40 0x300000000 = some (.cmdReserved 0) ∧
  decodeTableWord 40 0x200010002 = none ∧
  decodeTableWord 8 0x7E = some .wSync ∧
  decodeTableWord 8 0x7D = some .wEscape ∧
  decodeTableWord 8 0x41 = some (.wLit 0x41#8) ∧
  decodeTableWord 8 1 = some .irqForeign

/-- R72, R74: a command word with `op == 11` decodes to CMD_RESERVED, which is no command, and a REGISTER or write
word with a reserved bit set does not decode. -/
def Obligations.ReservedCommandWordsAreNoCommands : Prop :=
  ∀ (c : Config) (w : Nat), w < 2 ^ c.cmdW →
    (3 * 2 ^ c.payloadW ≤ w → decode c .cmd w = .ok (.cmdReserved (w - 3 * 2 ^ c.payloadW))) ∧
    (2 * 2 ^ c.payloadW + 2 ^ c.hidW ≤ w → w < 3 * 2 ^ c.payloadW → decode c .cmd w = .error .reservedBit) ∧
    (w < 2 * 2 ^ c.payloadW → 2 ^ (c.addrW + c.lenW) ≤ w % 2 ^ c.payloadW →
      decode c .cmd w = .error .reservedBit)

/-! The wire format. -/

/-- R69: decoding an encoded payload gives it back. -/
def Obligations.FrameRoundTrip : Prop :=
  ∀ (c : Config) (payload : List Byte), configOk c = true →
    frameDecode c (frameEncode c payload) = some payload

/-- R66: the length of a frame. -/
def Obligations.FrameLengthLaw : Prop :=
  ∀ (c : Config) (payload : List Byte),
    (frameEncode c payload).length = payload.length + 2 + reservedCount c payload

/-- R67: SYNC occurs in a frame as its first and its last byte and nowhere else, and an ESCAPE in a frame is followed
by SYNC ^ 0x20 or ESCAPE ^ 0x20. -/
def Obligations.DelimiterExclusivity : Prop :=
  ∀ (c : Config) (payload : List Byte), configOk c = true →
    (∃ interior, frameEncode c payload = c.sync :: (interior ++ [c.sync]) ∧ c.sync ∉ interior) ∧
    ∀ before after, frameEncode c payload = before ++ c.escape :: after →
      ∃ rest, after = (c.sync ^^^ 0x20#8) :: rest ∨ after = (c.escape ^^^ 0x20#8) :: rest

/-- R68: ESCAPE followed by X decodes to X ^ 0x20, the mask undoes itself, the two escape pairs that the encoder
produces differ, and each decodes, in any frame, to the byte it stands for. -/
def Obligations.EscapePairsAreABijection : Prop :=
  ∀ (c : Config), configOk c = true →
    (∀ x rest, x ≠ c.sync →
      unescBytes c (c.escape :: x :: rest) = (unescBytes c rest).map (fun t => (x ^^^ 0x20#8) :: t)) ∧
    (∀ b : Byte, b ^^^ 0x20#8 ^^^ 0x20#8 = b) ∧
    escByte c c.sync ≠ escByte c c.escape ∧
    ∀ b rest, isReserved c b = true → escByte c b = [c.escape, b ^^^ 0x20#8] ∧
      unescBytes c (escByte c b ++ rest) = (unescBytes c rest).map (fun t => b :: t)

/-! The host commands. -/

/-- R85: the acceptance of a framed write, everything else unchanged. -/
def Obligations.FrameWriteIsAccepted : Prop :=
  ∀ (s : State) (addr len : Nat), s.txstate = .tIdle → s.dphase = .dIdle → s.lpm = false →
    addr < 2 ^ s.cfg.addrW → len < 2 ^ s.cfg.lenW → addr + len ≤ 2 ^ s.cfg.addrW →
    exec (.frameWrite addr len) s =
      .next { s with txmode := .framed, txbase := addr, txlen := len, txidx := 0, txstate := .tOpen }

/-- R100: the acceptance of a raw write; with length 0 it completes at once. -/
def Obligations.RawWriteIsAccepted : Prop :=
  ∀ (s : State) (addr len : Nat), s.txstate = .tIdle → s.dphase = .dIdle → s.lpm = false →
    addr < 2 ^ s.cfg.addrW → len < 2 ^ s.cfg.lenW → addr + len ≤ 2 ^ s.cfg.addrW →
    exec (.rawWrite addr len) s =
      .next (if len = 0 then
        { s with
          txmode := .raw, txbase := addr, txlen := len, txidx := 0, txstate := .tIdle
          strobes := s.strobes ++ [.cmdDone] }
      else { s with txmode := .raw, txbase := addr, txlen := len, txidx := 0, txstate := .tBody })

/-- R110: REGISTER stores any identifier and changes nothing else. -/
def Obligations.RegisterReplacesTheSlot : Prop :=
  ∀ (s : State) (hid : Nat), s.txstate = .tIdle → s.dphase = .dIdle → s.lpm = false →
    hid < 2 ^ s.cfg.hidW →
    exec (.register hid) s = .next { s with cbslot := hid, strobes := s.strobes ++ [.cmdDone] }

/-- The host waits while a write is in progress, in the interrupt context, and in sleep (U13): the model's rendering
of cmd_ready == 0 (log entry 2). -/
def Obligations.CommandsWaitWhileNotReady : Prop :=
  ∀ (s : State) (a l : Nat), s.txstate ≠ .tIdle ∨ s.dphase ≠ .dIdle ∨ s.lpm = true →
    exec (.frameWrite a l) s = .next s ∧ exec (.rawWrite a l) s = .next s ∧ exec (.register a) s = .next s

/-- R47, R74: a write command that passes the top of memory is refused at acceptance. -/
def Obligations.WrappingWritesAreRefused : Prop :=
  ∀ (s : State) (addr len : Nat), s.txstate = .tIdle → s.dphase = .dIdle → s.lpm = false →
    2 ^ s.cfg.addrW < addr + len →
    exec (.frameWrite addr len) s = .refused .addressRange ∧
    exec (.rawWrite addr len) s = .refused .addressRange

/-- R74: `op == 11` is no command; CMD_RESERVED is refused in every state. -/
def Obligations.ReservedOperationIsRefused : Prop :=
  ∀ (s : State) (payload : Nat), exec (.cmdReserved payload) s = .refused .reservedOperation

/-! The TX engine. -/

/-- R86: the opening delimiter. -/
def Obligations.OpeningDelimiterIsWritten : Prop :=
  ∀ (s : State), s.txstate = .tOpen → s.dphase = .dIdle → s.lpm = false → s.txrdy = true →
    perform .mainline s =
      .next { s with
        txlog := s.txlog ++ [s.cfg.sync], txrdy := false
        txstate := if s.txlen = 0 then .tClose else .tBody
        strobes := s.strobes ++ [.txWrite s.cfg.sync] }

/-- R87: a plain payload byte is read and emitted unchanged. -/
def Obligations.PlainByteIsEmittedUnchanged : Prop :=
  ∀ (s : State) (b : Byte), s.txstate = .tBody → s.txmode = .framed → s.dphase = .dIdle → s.lpm = false →
    s.txrdy = true → readable s.cfg (s.txbase + s.txidx) = true → readByte s.mem (s.txbase + s.txidx) = b →
    b ≠ s.cfg.sync → b ≠ s.cfg.escape →
    exec (.pPlain b) s =
      .next { s with
        txlog := s.txlog ++ [b], txrdy := false, txidx := s.txidx + 1
        txstate := if s.txidx + 1 = s.txlen then .tClose else .tBody
        strobes := s.strobes ++ [.memRd (s.txbase + s.txidx), .txWrite b] }

/-- R88: a reserved payload byte is read and its ESCAPE emitted; TXIDX does not move. -/
def Obligations.ReservedByteEmitsEscapeFirst : Prop :=
  ∀ (s : State) (b : Byte), s.txstate = .tBody → s.txmode = .framed → s.dphase = .dIdle → s.lpm = false →
    s.txrdy = true → readable s.cfg (s.txbase + s.txidx) = true → readByte s.mem (s.txbase + s.txidx) = b →
    (b = s.cfg.sync →
      exec .pSync s =
        .next { s with
          txlog := s.txlog ++ [s.cfg.escape], txrdy := false, txcur := s.cfg.sync, txstate := .tEsc2
          strobes := s.strobes ++ [.memRd (s.txbase + s.txidx), .txWrite s.cfg.escape] }) ∧
    (b = s.cfg.escape →
      exec .pEscape s =
        .next { s with
          txlog := s.txlog ++ [s.cfg.escape], txrdy := false, txcur := s.cfg.escape, txstate := .tEsc2
          strobes := s.strobes ++ [.memRd (s.txbase + s.txidx), .txWrite s.cfg.escape] })

/-- R89: the operand of an escape pair comes from TXCUR; memory is not read. -/
def Obligations.EscapeOperandIsWritten : Prop :=
  ∀ (s : State), s.txstate = .tEsc2 → s.dphase = .dIdle → s.lpm = false → s.txrdy = true →
    perform .mainline s =
      .next { s with
        txlog := s.txlog ++ [s.txcur ^^^ 0x20#8], txrdy := false, txidx := s.txidx + 1
        txstate := if s.txidx + 1 = s.txlen then .tClose else .tBody
        strobes := s.strobes ++ [.txWrite (s.txcur ^^^ 0x20#8)] }

/-- R90: the closing delimiter completes the write. -/
def Obligations.ClosingDelimiterCompletes : Prop :=
  ∀ (s : State), s.txstate = .tClose → s.dphase = .dIdle → s.lpm = false → s.txrdy = true →
    perform .mainline s =
      .next { s with
        txlog := s.txlog ++ [s.cfg.sync], txrdy := false, txstate := .tIdle
        strobes := s.strobes ++ [.txWrite s.cfg.sync, .cmdDone] }

/-- R101: a raw payload byte is emitted whatever its value. -/
def Obligations.RawByteIsEmittedUnchanged : Prop :=
  ∀ (s : State) (b : Byte), s.txstate = .tBody → s.txmode = .raw → s.dphase = .dIdle → s.lpm = false →
    s.txrdy = true → readable s.cfg (s.txbase + s.txidx) = true → readByte s.mem (s.txbase + s.txidx) = b →
    exec (.pRaw b) s =
      .next { s with
        txlog := s.txlog ++ [b], txrdy := false, txidx := s.txidx + 1
        txstate := if s.txidx + 1 = s.txlen then .tIdle else .tBody
        strobes := s.strobes ++
          if s.txidx + 1 = s.txlen then [.memRd (s.txbase + s.txidx), .txWrite b, .cmdDone]
          else [.memRd (s.txbase + s.txidx), .txWrite b] }

/-- R48, R92, R166: main-line has no step while the hardware is not ready in a write, in the interrupt context, in
sleep, or at an unreadable address of the buffer; there it stays for ever in T_BODY. That a move without a step
changes nothing is the model's choice (log entry 2). -/
def Obligations.MainlineBlocks : Prop :=
  ∀ (s : State), ((s.txstate ≠ .tIdle ∧ s.txrdy = false) ∨ s.dphase ≠ .dIdle ∨ s.lpm = true →
      perform .mainline s = .next s) ∧
    (s.txstate = .tBody → readable s.cfg (s.txbase + s.txidx) = false → perform .mainline s = .next s)

/-- R51, R91: a step appends at most one byte to TXLOG, only when TXRDY was 1, and TXRDY is then 0. -/
def Obligations.TransmitLogGrowsOneReadyByteAtATime : Prop :=
  ∀ (s t : State), step s = .next t →
    t.txlog = s.txlog ∨ (s.txrdy = true ∧ t.txrdy = false ∧ ∃ b, t.txlog = s.txlog ++ [b])

/-- R96: no step of the interrupt agent and no answer of a handler changes the TX engine or TXLOG. -/
def Obligations.DispatchLeavesTheTransmitterAlone : Prop :=
  ∀ (s t : State) (a : HandlerAnswer), perform .interrupt s = .next t ∨ perform (.cbDone a) s = .next t →
    t.txstate = s.txstate ∧ t.txmode = s.txmode ∧ t.txbase = s.txbase ∧ t.txlen = s.txlen ∧
    t.txidx = s.txidx ∧ t.txcur = s.txcur ∧ t.txlog = s.txlog ∧ t.cbslot = s.cbslot

/-- R93: what a framed write emits, whatever is interleaved with it, if nothing writes its buffer. -/
def Obligations.FramedWriteEmitsTheFrame : Prop :=
  ∀ (s t u : State) (addr len : Nat), s.Inv → exec (.frameWrite addr len) s = .next t → s.cmdReady = true →
    WriteRun true t u → u.txstate = .tIdle →
    u.txlog = s.txlog ++ frameEncode s.cfg (bufferBytes s.mem addr len)

/-- R93: even if handlers write the buffer meanwhile, what is emitted is the frame of some payload of the
command's length. -/
def Obligations.FramedWriteAlwaysEmitsAFrame : Prop :=
  ∀ (s t u : State) (addr len : Nat), s.Inv → exec (.frameWrite addr len) s = .next t → s.cmdReady = true →
    WriteRun false t u → u.txstate = .tIdle →
    ∃ payload, payload.length = len ∧ u.txlog = s.txlog ++ frameEncode s.cfg payload

/-- R102: what a raw write emits, if nothing writes its buffer. -/
def Obligations.RawWriteEmitsTheBuffer : Prop :=
  ∀ (s t u : State) (addr len : Nat), s.Inv → exec (.rawWrite addr len) s = .next t → s.cmdReady = true →
    WriteRun true t u → u.txstate = .tIdle →
    u.txlog = s.txlog ++ bufferBytes s.mem addr len

/-- R94: a framed write of a readable buffer completes once the hardware has accepted each byte, after one
acceptance step and `len + 2 + r` transmit writes. -/
def Obligations.FramedWriteCompletes : Prop :=
  ∀ (s : State) (addr len : Nat) (rest : List Move), s.Inv → s.cmdReady = true →
    (Instr.frameWrite addr len).wellFormed s.cfg = true →
    s.cmdPort = some (encode s.cfg (.frameWrite addr len)).2 →
    (∀ k, k < len → readable s.cfg (addr + k) = true) →
    s.inputs =
      .mainline :: (ackSchedule (len + 2 + reservedCount s.cfg (bufferBytes s.mem addr len)) ++ rest) →
    ∃ t, core.run (1 + 2 * (len + 2 + reservedCount s.cfg (bufferBytes s.mem addr len))) s = .next t ∧
      t.txlog = s.txlog ++ frameEncode s.cfg (bufferBytes s.mem addr len) ∧
      t.txstate = .tIdle ∧ t.txrdy = false ∧ t.inputs = rest ∧ t.mem = s.mem ∧ t.cbslot = s.cbslot ∧
      t.dec = s.dec ∧ t.wakeReq = s.wakeReq

/-! The dispatch. -/

/-- R164: the interrupt is entered, changing DPHASE only, and only with a cause pending. That without one the move
changes nothing is the model's choice (log entry 2). -/
def Obligations.InterruptEntry : Prop :=
  ∀ (s : State), s.dphase = .dIdle →
    (s.rxifg = true ∨ s.otherifg = true → perform .interrupt s = .next { s with dphase := .dIdent }) ∧
    (s.rxifg = false → s.otherifg = false → perform .interrupt s = .next s)

/-- R115: an event that is not a receive event is ignored, its flag left alone. -/
def Obligations.ForeignEventIsIgnored : Prop :=
  ∀ (s : State), s.dphase = .dIdent → s.rxifg = false →
    (s.otherifg = true → exec .irqForeign s = .next { s with dphase := .dExit }) ∧
    (s.otherifg = false → exec .irqNone s = .next { s with dphase := .dExit })

/-- R116: the pending byte is read once, whether or not the foreign cause is pending. -/
def Obligations.ReceiveEventReadsTheByte : Prop :=
  ∀ (s : State), s.dphase = .dIdent → s.rxifg = true →
    exec (.irqRx s.otherifg) s =
      .next { s with
        rxbyte := s.rxbuf, rxifg := false, dphase := .dCall, strobes := s.strobes ++ [.rxRead] }

/-- R113, R117: the default handler returns 0 and changes nothing but RETVAL, CBLOG and the phase. -/
def Obligations.DefaultHandlerDoesNothing : Prop :=
  ∀ (s : State), s.dphase = .dCall → s.cbslot = 0 →
    perform .interrupt s =
      .next { s with retval := 0, cblog := s.cblog ++ [⟨0, s.rxbyte, 0⟩], dphase := .dExit }

/-- R117, R118, R120: an external handler's answer is logged, and any nonzero value latches the wake request. -/
def Obligations.ExternalHandlerReturns : Prop :=
  ∀ (s : State) (a : HandlerAnswer), s.dphase = .dCall → isExternal s.cfg s.cbslot = true →
    a.ret < 2 ^ s.cfg.retW → (∀ w ∈ a.writes, w.1 < 2 ^ s.cfg.addrW) →
    perform (.cbDone a) s =
      .next { s with
        hstate := a.hstate, mem := writeBytes s.mem a.writes, retval := a.ret
        cblog := s.cblog ++ [⟨s.cbslot, s.rxbyte, a.ret⟩]
        wakeReq := if a.ret = 0 then s.wakeReq else true
        dphase := .dExit }

/-- R121, R122: an identifier no handler answers to is the fault INVALID_HANDLER, and a defined handler that has not
returned keeps the dispatcher where it is (log entries 15 and 2: the fault ends the run, waiting changes
nothing). -/
def Obligations.CallWithoutAnAnswer : Prop :=
  ∀ (s : State), s.dphase = .dCall → s.cbslot ≠ 0 → s.cbslot ≠ 1 →
    (isExternal s.cfg s.cbslot = false → perform .interrupt s = .fault .invalidHandler) ∧
    (isExternal s.cfg s.cbslot = true → perform .interrupt s = .next s)

/-- R168, R170: the interrupt return, with and without a latched wake request. -/
def Obligations.InterruptExit : Prop :=
  ∀ (s : State), s.dphase = .dExit →
    perform .interrupt s =
      .next (if s.wakeReq = true then
        { s with
          wakelog := s.wakelog ++ [s.cblog.length], lpm := false, wakeReq := false, dphase := .dIdle
          strobes := s.strobes ++ [.wake] }
      else { s with dphase := .dIdle })

/-- R54, R111, R166: the slot changes only when main-line accepts a REGISTER, outside the interrupt context, or by
a reset, and every invocation logged is of the handler the slot then names, with the byte read. -/
def Obligations.SlotIsStableAndNamesTheHandler : Prop :=
  ∀ (s t : State), s.noReset → step s = .next t →
    (t.cbslot = s.cbslot ∨
      (nextMove s = .mainline ∧ s.dphase = .dIdle ∧ s.lpm = false ∧ s.txstate = .tIdle ∧
        ∃ w, s.cmdPort = some w ∧ decode s.cfg .cmd w = .ok (.register t.cbslot))) ∧
    (t.cblog = s.cblog ∨
      (s.dphase = .dCall ∧ t.dphase = .dExit ∧ t.cblog = s.cblog ++ [⟨s.cbslot, s.rxbyte, t.retval⟩]))

/-- R113, R126: with the default handler in the slot no step wakes the processor, touches the decoder's output, or
logs any invocation but the default handler's. -/
def Obligations.DefaultHandlerNeverWakes : Prop :=
  ∀ (s t : State), s.noReset → s.cbslot = 0 → s.wakeReq = false → step s = .next t →
    t.wakeReq = false ∧ t.wakelog = s.wakelog ∧ t.declog = s.declog ∧ t.dec = s.dec ∧
    (t.cblog = s.cblog ∨ ∃ b, t.cblog = s.cblog ++ [⟨0, b, 0⟩])

/-- R169: the wake signal is sent in the step that leaves the interrupt context with WAKE_REQ latched, and in no
other; that step clears the latch. -/
def Obligations.WakeSignalIsOneShot : Prop :=
  ∀ (s t : State), step s = .next t →
    (t.wakelog ≠ s.wakelog ↔ nextMove s = .interrupt ∧ s.dphase = .dExit ∧ s.wakeReq = true) ∧
    (t.wakelog ≠ s.wakelog → t.wakelog = s.wakelog ++ [s.cblog.length] ∧ t.wakeReq = false ∧ t.lpm = false ∧
      Strobe.wake ∈ t.strobes)

/-- R118, R126: the document's scenario 3. A handler of the odd-byte bank wakes the processor for an odd byte and
leaves the power mode alone for an even one. -/
def Obligations.OddByteHandlerWakesOnOddBytes : Prop :=
  ∀ (s : State) (a : HandlerAnswer) (rest : List Move), s.Inv → s.dphase = .dCall →
    isExternal s.cfg s.cbslot = true → admitted oddBank s a → answerOk s.cfg a = true →
    s.inputs = .cbDone a :: .interrupt :: rest →
    ∃ t, core.run 2 s = .next t ∧ t.dphase = .dIdle ∧ t.wakeReq = false ∧
      t.wakelog = s.wakelog ++ (if s.rxbyte.toNat % 2 = 1 then [s.cblog.length + 1] else []) ∧
      t.lpm = (if s.rxbyte.toNat % 2 = 1 then false else s.lpm)

/-! The decoder. -/

/-- R137, R138, R117, R118, R125: the decoder outside a frame, as the handler of the byte read. That a DEC_* row
ends the call is the model's inference (log entry 13). -/
def Obligations.DecoderOutsideAFrame : Prop :=
  ∀ (s : State), s.dphase = .dCall → s.cbslot = 1 → s.dec.state = .hunt →
    (s.rxbyte = s.cfg.sync →
      exec .decHuntSync s =
        .next { s with
          dec := ⟨.data, false, []⟩, retval := 0, cblog := s.cblog ++ [⟨1, s.rxbyte, 0⟩], dphase := .dExit }) ∧
    (s.rxbyte ≠ s.cfg.sync →
      exec (.decHuntOther s.rxbyte) s =
        .next { s with retval := 0, cblog := s.cblog ++ [⟨1, s.rxbyte, 0⟩], dphase := .dExit })

/-- R139 to R141, R144, R117, R118, R125: the decoder inside a frame. That a DEC_* row ends the call is the model's
inference (log entry 13). -/
def Obligations.DecoderInsideAFrame : Prop :=
  ∀ (s : State), s.dphase = .dCall → s.cbslot = 1 → s.dec.state = .data →
    (s.rxbyte = s.cfg.sync → s.dec.err = false →
      exec .decDataSync s =
        .next { s with
          dec := { s.dec with state := .hunt }
          declog := s.declog ++ [.frame s.dec.buf]
          strobes := s.strobes ++ [.decFrame s.dec.buf.length]
          retval := 1, cblog := s.cblog ++ [⟨1, s.rxbyte, 1⟩], wakeReq := true, dphase := .dExit }) ∧
    (s.rxbyte = s.cfg.sync → s.dec.err = true →
      exec .decDataSync s =
        .next { s with
          dec := { s.dec with state := .hunt }
          declog := s.declog ++ [.frameError .overflow]
          strobes := s.strobes ++ [.decError .overflow]
          retval := 0, cblog := s.cblog ++ [⟨1, s.rxbyte, 0⟩], dphase := .dExit }) ∧
    (s.rxbyte = s.cfg.escape →
      exec .decDataEscape s =
        .next { s with
          dec := { s.dec with state := .esc }
          retval := 0, cblog := s.cblog ++ [⟨1, s.rxbyte, 0⟩], dphase := .dExit }) ∧
    (s.rxbyte ≠ s.cfg.sync → s.rxbyte ≠ s.cfg.escape →
      exec (.decDataLit s.rxbyte) s =
        .next { s with
          dec := decAppend s.cfg s.dec s.rxbyte
          retval := 0, cblog := s.cblog ++ [⟨1, s.rxbyte, 0⟩], dphase := .dExit })

/-- R142, R143, R117, R118, R125: the decoder after an ESCAPE. That a DEC_* row ends the call is the model's
inference (log entry 13). -/
def Obligations.DecoderAfterAnEscape : Prop :=
  ∀ (s : State), s.dphase = .dCall → s.cbslot = 1 → s.dec.state = .esc →
    (s.rxbyte = s.cfg.sync →
      exec .decEscSync s =
        .next { s with
          dec := { s.dec with state := .hunt }
          declog := s.declog ++ [.frameError .escSync]
          strobes := s.strobes ++ [.decError .escSync]
          retval := 0, cblog := s.cblog ++ [⟨1, s.rxbyte, 0⟩], dphase := .dExit }) ∧
    (s.rxbyte ≠ s.cfg.sync →
      exec (.decEscOther s.rxbyte) s =
        .next { s with
          dec := { decAppend s.cfg s.dec (s.rxbyte ^^^ 0x20#8) with state := .data }
          retval := 0, cblog := s.cblog ++ [⟨1, s.rxbyte, 0⟩], dphase := .dExit })

/-- R144: the bounded append, in its two cases. -/
def Obligations.BoundedAppend : Prop :=
  ∀ (c : Config) (d : Decoder) (v : Byte),
    (d.err = false → (∀ cap, c.decCap = some cap → d.buf.length < cap) →
      decAppend c d v = { d with buf := d.buf ++ [v] }) ∧
    (d.err = true ∨ (∃ cap, c.decCap = some cap ∧ cap ≤ d.buf.length) →
      decAppend c d v = { d with err := true })

/-- R125, R136: a wire symbol, received as the handler H_DECODER's byte, is one call of dec_step, and runs the
transition that the table of R136 selects by the decoder's state and the byte's class (log entry 13). -/
def Obligations.WireSymbolsCallTheDecoder : Prop :=
  ∀ (s : State), configOk s.cfg = true → s.dphase = .dCall → s.cbslot = 1 →
    ∃ t, t.dec = (decStep s.cfg s.dec s.rxbyte).dec ∧
      t.declog = s.declog ++ (decStep s.cfg s.dec s.rxbyte).event.toList ∧
      t.retval = (decStep s.cfg s.dec s.rxbyte).ret ∧ t.dphase = .dExit ∧
      t.cblog = s.cblog ++ [⟨1, s.rxbyte, (decStep s.cfg s.dec s.rxbyte).ret⟩] ∧
      t.mem = s.mem ∧ t.hstate = s.hstate ∧ t.cbslot = s.cbslot ∧ t.txlog = s.txlog ∧ t.lpm = s.lpm ∧
      (s.rxbyte = s.cfg.sync → exec .wSync s = .next t) ∧
      (s.rxbyte = s.cfg.escape → exec .wEscape s = .next t) ∧
      (s.rxbyte ≠ s.cfg.sync → s.rxbyte ≠ s.cfg.escape → exec (.wLit s.rxbyte) s = .next t) ∧
      exec (decodeTransition s.cfg s.dec.state s.rxbyte) s = .next t

/-- R145: the decoder returns 1 exactly when it delivers a good frame, and 0 otherwise; so a call of H_DECODER
requests a wake exactly when a frame is delivered. -/
def Obligations.DecoderReturnsOneOnAGoodFrame : Prop :=
  (∀ (c : Config) (d : Decoder) (b : Byte),
    ((decStep c d b).ret = 1 ↔ ∃ payload, (decStep c d b).event = some (.frame payload)) ∧
    ((decStep c d b).ret = 0 ∨ (decStep c d b).ret = 1)) ∧
  ∀ (s : State), s.dphase = .dCall → s.cbslot = 1 → s.wakeReq = false →
    ∃ t, perform .interrupt s = .next t ∧ t.dphase = .dExit ∧
      (t.wakeReq = true ↔ ∃ payload, t.declog = s.declog ++ [.frame payload])

/-- R147: the decoder on the encoder's output. -/
def Obligations.DecoderInvertsTheEncoder : Prop :=
  ∀ (c : Config) (d : Decoder) (payload : List Byte), configOk c = true → d.state = .hunt → fits c payload →
    decFold c d (frameEncode c payload) =
      (⟨.hunt, false, payload⟩, List.replicate ((frameEncode c payload).length - 1) 0 ++ [1], [.frame payload])

/-- R148: frames, each followed by bytes other than SYNC, are delivered in order, and nothing else is. -/
def Obligations.FramesInSequenceAreDelivered : Prop :=
  ∀ (c : Config) (d : Decoder) (parts : List (List Byte × List Byte)), configOk c = true → d.state = .hunt →
    (∀ part ∈ parts, fits c part.1 ∧ c.sync ∉ part.2) →
    (decFold c d (parts.flatMap (fun part => frameEncode c part.1 ++ part.2))).2.2 =
      parts.map (fun part => .frame part.1)

/-- R164, R174, R116 to R118, R125, R145, R147, R168: a frame that arrives byte by byte and is dispatched to H_DECODER appends one event, the
frame, to DECLOG and sends one wake signal. -/
def Obligations.ReceivedFrameWakesOnce : Prop :=
  ∀ (s : State) (payload : List Byte) (rest : List Move), s.Inv → s.cbslot = 1 → s.dphase = .dIdle →
    s.rxifg = false → s.otherifg = false → s.dec.state = .hunt → fits s.cfg payload →
    s.inputs = dispatchSchedule (frameEncode s.cfg payload) ++ rest →
    ∃ t, core.run (5 * (frameEncode s.cfg payload).length) s = .next t ∧
      t.declog = s.declog ++ [.frame payload] ∧ t.dec = ⟨.hunt, false, payload⟩ ∧
      t.wakelog = s.wakelog ++ [s.cblog.length + (frameEncode s.cfg payload).length] ∧ t.lpm = false ∧
      t.dphase = .dIdle ∧ t.rxifg = false ∧ t.inputs = rest ∧ t.txlog = s.txlog ∧ t.txstate = s.txstate

/-! The environment and the power modes. -/

/-- R98, R173, R177: TXACK, FOREIGN and SLEEP. That SLEEP with a false guard, and TXACK with TXRDY already 1, are
steps that change nothing is the model's choice (log entry 2). -/
def Obligations.EnvironmentFlagSteps : Prop :=
  ∀ (s : State) (b : Bool),
    perform .txAck s = .next { s with txrdy := true } ∧
    perform (.foreign b) s = .next { s with otherifg := b } ∧
    perform .sleep s =
      .next (if s.dphase = .dIdle ∧ s.lpm = false ∧ s.txstate = .tIdle then { s with lpm := true } else s)

/-- R174, R175, R176: what the arrival of a byte does, in each case. -/
def Obligations.ByteArrival : Prop :=
  ∀ (s : State) (v draw : Byte) (held : Bool),
    (s.rxifg = false → s.dphase = .dIdle →
      perform (.rx v draw held) s = .next { s with rxbuf := v, rxifg := true }) ∧
    (s.rxifg = true → perform (.rx v draw held) s = .next { s with rxbuf := draw }) ∧
    (s.rxifg = false → s.dphase ≠ .dIdle →
      perform (.rx v draw held) s = .next (if held = true then { s with rxbuf := v, rxifg := true } else s))

/-- R200, R195, R196, R198: the reset input at any time. LPM = 0 and the rest of the interface unchanged are the
model's reading (log entry 12). -/
def Obligations.ResetAbandonsEverything : Prop :=
  ∀ (s : State) (d : HoldDraw), d.txbase < 2 ^ s.cfg.addrW → d.txlen < 2 ^ s.cfg.lenW →
    d.txidx < 2 ^ s.cfg.lenW → d.retval < 2 ^ s.cfg.retW →
    perform (.rst d) s =
      .next { s with
        cbslot := 0, txstate := .tIdle, dphase := .dIdle, wakeReq := false, dec := ⟨.hunt, false, []⟩
        txmode := d.txmode, txbase := d.txbase, txlen := d.txlen, txidx := d.txidx, txcur := d.txcur
        rxbyte := d.rxbyte, retval := d.retval, lpm := false }

/-- R195, R196, R197, R198: the state after the power-on reset, for every build and every environment. -/
def Obligations.PowerOnState : Prop :=
  ∀ (c : Config) (d : HoldDraw) (e : EnvDraw),
    (State.powerOn c d e).cbslot = 0 ∧ (State.powerOn c d e).txstate = .tIdle ∧
    (State.powerOn c d e).dphase = .dIdle ∧ (State.powerOn c d e).wakeReq = false ∧
    (State.powerOn c d e).dec = ⟨.hunt, false, []⟩ ∧ (State.powerOn c d e).lpm = false ∧
    (State.powerOn c d e).txlog = [] ∧ (State.powerOn c d e).cblog = [] ∧
    (State.powerOn c d e).wakelog = [] ∧ (State.powerOn c d e).declog = []

/-! The machine. -/

/-- When the word that the next move reads decodes to an instruction, the step is that instruction's meaning, at the
state where the move is taken from the queue (log entry 1), the pulses are cleared (log entry 9), and a command has
left its port (log entry 7); these three are the model's choices. -/
def Obligations.StepRunsTheDecodedInstruction : Prop :=
  ∀ (s : State) (src : Source) (w : Nat) (i : Instr), configOk s.cfg = true →
    fetch (nextMove s) (beginStep s) = some (src, w) → decode s.cfg src w = .ok i →
    step s = exec i (consume src (beginStep s))

/-- R5: a configuration without CFG_OK has no behaviour. -/
def Obligations.BadConstantsAreRefused : Prop :=
  ∀ (s : State), s.cfg.sync = s.cfg.escape ∨ s.cfg.sync = s.cfg.escape ^^^ 0x20#8 →
    step s = .refused .badConfiguration

/-- Every step keeps the invariant. -/
def Obligations.EveryStepKeepsTheInvariant : Prop :=
  ∀ (s t : State), s.Inv → step s = .next t → t.Inv

/-- The invariant holds after the power-on reset of every build, with every environment and every value of the
unspecified elements that their registers have bits for; so at `State.reset`. -/
def Obligations.ResetHasTheInvariant : Prop :=
  State.reset.Inv ∧
  ∀ (c : Config) (d : HoldDraw) (e : EnvDraw), configOk c = true → holdOk c d = true →
    Memory.wf e.mem = true → (∀ cell ∈ e.mem, cell.1 < 2 ^ c.addrW) → (State.powerOn c d e).Inv

/-- R114, R127: the transition relations of the three sequencers, for every step but a reset. -/
def Obligations.SequencersFollowTheirRelations : Prop :=
  ∀ (s t : State), s.noReset → step s = .next t →
    (t.dphase = s.dphase ∨ (s.dphase, t.dphase) ∈
      [(.dIdle, .dIdent), (.dIdent, .dCall), (.dIdent, .dExit), (.dCall, .dExit), (.dExit, DPhase.dIdle)]) ∧
    (t.txstate = s.txstate ∨ (s.txstate, t.txstate) ∈
      [(.tIdle, .tOpen), (.tIdle, .tBody), (.tOpen, .tBody), (.tOpen, .tClose), (.tBody, .tClose),
        (.tBody, .tEsc2), (.tEsc2, .tBody), (.tEsc2, .tClose), (.tClose, TxState.tIdle)] ∨
      (s.txmode = .raw ∧ s.txstate = .tBody ∧ t.txstate = .tIdle)) ∧
    (t.dec.state = s.dec.state ∨ (s.dphase = .dCall ∧ s.cbslot = 1 ∧ (s.dec.state, t.dec.state) ∈
      [(.hunt, .data), (.data, .hunt), (.data, .esc), (.esc, .hunt), (.esc, DecState.data)]))

/-- R41: the block never writes memory. No instruction does, and a step changes a byte only when an external
handler answers or main-line software stores outside an operation. -/
def Obligations.BlockNeverWritesMemory : Prop :=
  (∀ (i : Instr) (s t : State), exec i s = .next t → ∀ a, readByte t.mem a = readByte s.mem a) ∧
  (∀ (s t : State) (a : Nat), step s = .next t → readByte t.mem a ≠ readByte s.mem a →
    (∃ answer, nextMove s = .cbDone answer ∧ a ∈ answer.writes.map Prod.fst) ∨
    (∃ v, nextMove s = .store a v ∧ s.txstate = .tIdle ∧ s.dphase = .dIdle ∧ s.lpm = false))

/-- R45: a step reads memory only in T_BODY, with the hardware ready, only at TXBASE + TXIDX, and at most once. -/
def Obligations.MemoryIsReadAtTheIndexOnly : Prop :=
  ∀ (s t : State), step s = .next t →
    addressesRead t.strobes = [] ∨
    (s.txstate = .tBody ∧ s.txrdy = true ∧ addressesRead t.strobes = [s.txbase + s.txidx])

/-- R205, R116: the receive register is read in the identification step of a receive event only, once. -/
def Obligations.ReceiveRegisterIsReadOncePerEvent : Prop :=
  ∀ (s t : State), step s = .next t → s.rxifg = true →
    (t.rxifg = false ↔ nextMove s = .interrupt ∧ s.dphase = .dIdent) ∧
    (t.rxifg = false → t.rxbyte = s.rxbuf ∧ t.strobes = [.rxRead])

/-- R198, C7: no step, a reset included, takes anything out of the observation logs. -/
def Obligations.LogsOnlyGrow : Prop :=
  ∀ (s t : State), step s = .next t →
    s.txlog <+: t.txlog ∧ s.cblog <+: t.cblog ∧ s.wakelog <+: t.wakelog ∧ s.declog <+: t.declog
end

