-- ==== Sys2Proof/Laws/Memory.lean ====
section
/-! SUPPORT. The memory: a read after a write, the canonical form and that every operation keeps it. -/

namespace Sys2Proof.Machine

theorem Memory.wf_cons {k : Nat} {v : Byte} {rest : Memory} :
    Memory.wf ((k, v) :: rest) = true ↔
      v ≠ unlistedByte ∧ (∀ c ∈ rest, k < c.1) ∧ Memory.wf rest = true := by
  simp [Memory.wf, and_assoc]

/-- An address below every listed one reads as an unlisted byte. -/
theorem readByte_below (m : Memory) (a : Nat) (h : ∀ c ∈ m, a < c.1) : readByte m a = unlistedByte := by
  induction m with
  | nil => rfl
  | cons c rest ih =>
    have hc := h c (by simp)
    rw [show c = (c.1, c.2) from rfl, readByte, if_neg (by omega)]
    exact ih fun d hd => h d (by simp [hd])

/-- A write leaves every other address alone, in any memory. -/
theorem readByte_writeByte_other (m : Memory) (a b : Nat) (v : Byte) (h : b ≠ a) :
    readByte (writeByte m a v) b = readByte m b := by
  induction m with
  | nil =>
    unfold writeByte
    split <;> simp [readByte, Ne.symm h]
  | cons c rest ih =>
    obtain ⟨k, w⟩ := c
    unfold writeByte
    split
    · split <;> simp [readByte, Ne.symm h]
    · split
      · next hk => subst hk; split <;> simp [readByte, Ne.symm h]
      · simp only [readByte]; split <;> simp_all

/-- A read after a write to the same address gives the byte written. -/
theorem readByte_writeByte_same (m : Memory) (a : Nat) (v : Byte) (h : Memory.wf m = true) :
    readByte (writeByte m a v) a = v := by
  induction m with
  | nil => unfold writeByte; split <;> simp_all [readByte]
  | cons c rest ih =>
    obtain ⟨k, w⟩ := c
    obtain ⟨-, hk, hr⟩ := Memory.wf_cons.1 h
    unfold writeByte
    split
    · next hlt =>
      split
      · next hv => rw [hv]; exact readByte_below _ _ (by simpa using ⟨hlt, fun x y hxy => lt_trans hlt (hk (x, y) hxy)⟩)
      · simp [readByte]
    · split
      · next hak =>
        subst hak
        split
        · next hv => rw [hv]; exact readByte_below _ _ hk
        · simp [readByte]
      · next hne => simp only [readByte]; rw [if_neg (Ne.symm hne)]; exact ih hr

theorem mem_writeByte (m : Memory) (a : Nat) (v : Byte) (c : Host.Cell) (h : c ∈ writeByte m a v) :
    c = (a, v) ∨ c ∈ m := by
  induction m with
  | nil => unfold writeByte at h; split at h <;> simp_all
  | cons d rest ih =>
    obtain ⟨k, w⟩ := d
    unfold writeByte at h
    split at h
    · split at h <;> simp_all
    · split at h
      · split at h
        · simp [h]
        · simp only [List.mem_cons] at h ⊢; tauto
      · simp only [List.mem_cons] at h ⊢
        rcases h with h | h
        · tauto
        · rcases ih h with h | h <;> tauto

/-- A write keeps the canonical form. -/
theorem writeByte_wf (m : Memory) (a : Nat) (v : Byte) (h : Memory.wf m = true) :
    Memory.wf (writeByte m a v) = true := by
  induction m with
  | nil => unfold writeByte; split <;> simp_all [Memory.wf]
  | cons c rest ih =>
    obtain ⟨k, w⟩ := c
    obtain ⟨hw, hk, hr⟩ := Memory.wf_cons.1 h
    unfold writeByte
    split
    · next hlt =>
      split
      · exact h
      · next hv =>
        refine Memory.wf_cons.2 ⟨hv, ?_, h⟩
        intro c hc
        rcases List.mem_cons.1 hc with rfl | hc
        · exact hlt
        · exact lt_trans hlt (hk c hc)
    · split
      · next hak =>
        subst hak
        split
        · exact hr
        · next hv => exact Memory.wf_cons.2 ⟨hv, hk, hr⟩
      · next hnlt hne =>
        refine Memory.wf_cons.2 ⟨hw, ?_, ih hr⟩
        intro c hc
        rcases mem_writeByte _ _ _ _ hc with rfl | hc
        · show k < a; omega
        · exact hk c hc

theorem writeBytes_wf (m : Memory) (ws : List (Nat × Byte)) (h : Memory.wf m = true) :
    Memory.wf (writeBytes m ws) = true := by
  induction ws generalizing m with
  | nil => exact h
  | cons w rest ih => exact ih _ (writeByte_wf m w.1 w.2 h)

theorem mem_writeBytes (m : Memory) (ws : List (Nat × Byte)) (c : Host.Cell) (h : c ∈ writeBytes m ws) :
    c ∈ ws ∨ c ∈ m := by
  induction ws generalizing m with
  | nil => exact .inr h
  | cons w rest ih =>
    rcases ih _ h with h | h
    · exact .inl (by simp [h])
    · rcases mem_writeByte _ _ _ _ h with h | h
      · exact .inl (by simp [h])
      · exact .inr h

/-- Bytes written elsewhere leave an address alone. -/
theorem readByte_writeBytes_other (m : Memory) (ws : List (Nat × Byte)) (a : Nat)
    (h : a ∉ ws.map Prod.fst) : readByte (writeBytes m ws) a = readByte m a := by
  induction ws generalizing m with
  | nil => rfl
  | cons w rest ih =>
    simp only [List.map_cons, List.mem_cons, not_or] at h
    exact (ih _ h.2).trans (readByte_writeByte_other m w.1 a w.2 h.1)

/-- Canonical memories that read alike are equal. -/
theorem Memory.ext_read (m n : Memory) (hm : Memory.wf m = true) (hn : Memory.wf n = true)
    (h : ∀ a, readByte m a = readByte n a) : m = n := by
  induction m generalizing n with
  | nil =>
    cases n with
    | nil => rfl
    | cons c rest =>
      obtain ⟨k, v⟩ := c
      have := h k
      simp only [readByte, if_true] at this
      exact absurd this.symm (Memory.wf_cons.1 hn).1
  | cons c rest ih =>
    obtain ⟨k, v⟩ := c
    obtain ⟨hv, hk, hr⟩ := Memory.wf_cons.1 hm
    cases n with
    | nil =>
      have := h k
      simp only [readByte, if_true] at this
      exact absurd this hv
    | cons d rest' =>
      obtain ⟨k', v'⟩ := d
      obtain ⟨hv', hk', hr'⟩ := Memory.wf_cons.1 hn
      have hkk : k = k' := by
        by_contra hne
        rcases Nat.lt_or_gt_of_ne hne with hlt | hgt
        · have := h k
          rw [readByte, if_pos rfl, readByte_below ((k', v') :: rest') k] at this
          · exact hv this
          · intro c hc
            rcases List.mem_cons.1 hc with rfl | hc
            · exact hlt
            · exact lt_trans hlt (hk' c hc)
        · have := h k'
          rw [readByte_below ((k, v) :: rest) k', readByte, if_pos rfl] at this
          · exact hv' this.symm
          · intro c hc
            rcases List.mem_cons.1 hc with rfl | hc
            · exact hgt
            · exact lt_trans hgt (hk c hc)
      subst hkk
      have hvv := h k
      simp only [readByte, if_true] at hvv
      subst hvv
      congr 1
      refine ih rest' hr hr' fun a => ?_
      by_cases hak : k = a
      · subst hak; rw [readByte_below rest _ hk, readByte_below rest' _ hk']
      · have := h a
        simpa only [readByte, if_neg hak] using this

/-- The buffer's bytes depend on its own addresses only. -/
theorem bufferBytes_congr (m m' : Memory) (a n : Nat)
    (h : ∀ k, a ≤ k → k < a + n → readByte m' k = readByte m k) : bufferBytes m' a n = bufferBytes m a n := by
  induction n generalizing a with
  | zero => rfl
  | succ n ih =>
    rw [bufferBytes, bufferBytes, h a (by omega) (by omega), ih (a + 1) fun k h1 h2 => h k (by omega) (by omega)]

@[simp] theorem bufferBytes_length (m : Memory) (a n : Nat) : (bufferBytes m a n).length = n := by
  induction n generalizing a with
  | zero => rfl
  | succ n ih => simp [bufferBytes, ih]

end Sys2Proof.Machine
end

