-- ==== Sys2Proof/Laws/State.lean ====
section
/-! SUPPORT. What each update of the state does to each field. -/

namespace Sys2Proof.Machine

section
variable (s : State)

/-! `txWrite` -/

@[simp] theorem txWrite_cfg (b : Byte) : (s.txWrite b).cfg = s.cfg := rfl
@[simp] theorem txWrite_cbslot (b : Byte) : (s.txWrite b).cbslot = s.cbslot := rfl
@[simp] theorem txWrite_wakeReq (b : Byte) : (s.txWrite b).wakeReq = s.wakeReq := rfl
@[simp] theorem txWrite_dphase (b : Byte) : (s.txWrite b).dphase = s.dphase := rfl
@[simp] theorem txWrite_rxbyte (b : Byte) : (s.txWrite b).rxbyte = s.rxbyte := rfl
@[simp] theorem txWrite_retval (b : Byte) : (s.txWrite b).retval = s.retval := rfl
@[simp] theorem txWrite_txstate (b : Byte) : (s.txWrite b).txstate = s.txstate := rfl
@[simp] theorem txWrite_txmode (b : Byte) : (s.txWrite b).txmode = s.txmode := rfl
@[simp] theorem txWrite_txbase (b : Byte) : (s.txWrite b).txbase = s.txbase := rfl
@[simp] theorem txWrite_txlen (b : Byte) : (s.txWrite b).txlen = s.txlen := rfl
@[simp] theorem txWrite_txidx (b : Byte) : (s.txWrite b).txidx = s.txidx := rfl
@[simp] theorem txWrite_txcur (b : Byte) : (s.txWrite b).txcur = s.txcur := rfl
@[simp] theorem txWrite_dec (b : Byte) : (s.txWrite b).dec = s.dec := rfl
@[simp] theorem txWrite_txrdy (b : Byte) : (s.txWrite b).txrdy = false := rfl
@[simp] theorem txWrite_rxbuf (b : Byte) : (s.txWrite b).rxbuf = s.rxbuf := rfl
@[simp] theorem txWrite_rxifg (b : Byte) : (s.txWrite b).rxifg = s.rxifg := rfl
@[simp] theorem txWrite_otherifg (b : Byte) : (s.txWrite b).otherifg = s.otherifg := rfl
@[simp] theorem txWrite_lpm (b : Byte) : (s.txWrite b).lpm = s.lpm := rfl
@[simp] theorem txWrite_mem (b : Byte) : (s.txWrite b).mem = s.mem := rfl
@[simp] theorem txWrite_hstate (b : Byte) : (s.txWrite b).hstate = s.hstate := rfl
@[simp] theorem txWrite_cmdPort (b : Byte) : (s.txWrite b).cmdPort = s.cmdPort := rfl
@[simp] theorem txWrite_txlog (b : Byte) : (s.txWrite b).txlog = s.txlog ++ [b] := rfl
@[simp] theorem txWrite_cblog (b : Byte) : (s.txWrite b).cblog = s.cblog := rfl
@[simp] theorem txWrite_wakelog (b : Byte) : (s.txWrite b).wakelog = s.wakelog := rfl
@[simp] theorem txWrite_declog (b : Byte) : (s.txWrite b).declog = s.declog := rfl
@[simp] theorem txWrite_strobes (b : Byte) : (s.txWrite b).strobes = s.strobes ++ [.txWrite b] := rfl
@[simp] theorem txWrite_inputs (b : Byte) : (s.txWrite b).inputs = s.inputs := rfl
@[simp] theorem txWrite_tick (b : Byte) : (s.txWrite b).tick = s.tick := rfl

/-! `readPayload` -/

@[simp] theorem readPayload_cfg : (s.readPayload).cfg = s.cfg := rfl
@[simp] theorem readPayload_cbslot : (s.readPayload).cbslot = s.cbslot := rfl
@[simp] theorem readPayload_wakeReq : (s.readPayload).wakeReq = s.wakeReq := rfl
@[simp] theorem readPayload_dphase : (s.readPayload).dphase = s.dphase := rfl
@[simp] theorem readPayload_rxbyte : (s.readPayload).rxbyte = s.rxbyte := rfl
@[simp] theorem readPayload_retval : (s.readPayload).retval = s.retval := rfl
@[simp] theorem readPayload_txstate : (s.readPayload).txstate = s.txstate := rfl
@[simp] theorem readPayload_txmode : (s.readPayload).txmode = s.txmode := rfl
@[simp] theorem readPayload_txbase : (s.readPayload).txbase = s.txbase := rfl
@[simp] theorem readPayload_txlen : (s.readPayload).txlen = s.txlen := rfl
@[simp] theorem readPayload_txidx : (s.readPayload).txidx = s.txidx := rfl
@[simp] theorem readPayload_txcur : (s.readPayload).txcur = s.txcur := rfl
@[simp] theorem readPayload_dec : (s.readPayload).dec = s.dec := rfl
@[simp] theorem readPayload_txrdy : (s.readPayload).txrdy = s.txrdy := rfl
@[simp] theorem readPayload_rxbuf : (s.readPayload).rxbuf = s.rxbuf := rfl
@[simp] theorem readPayload_rxifg : (s.readPayload).rxifg = s.rxifg := rfl
@[simp] theorem readPayload_otherifg : (s.readPayload).otherifg = s.otherifg := rfl
@[simp] theorem readPayload_lpm : (s.readPayload).lpm = s.lpm := rfl
@[simp] theorem readPayload_mem : (s.readPayload).mem = s.mem := rfl
@[simp] theorem readPayload_hstate : (s.readPayload).hstate = s.hstate := rfl
@[simp] theorem readPayload_cmdPort : (s.readPayload).cmdPort = s.cmdPort := rfl
@[simp] theorem readPayload_txlog : (s.readPayload).txlog = s.txlog := rfl
@[simp] theorem readPayload_cblog : (s.readPayload).cblog = s.cblog := rfl
@[simp] theorem readPayload_wakelog : (s.readPayload).wakelog = s.wakelog := rfl
@[simp] theorem readPayload_declog : (s.readPayload).declog = s.declog := rfl
@[simp] theorem readPayload_strobes : (s.readPayload).strobes = s.strobes ++ [.memRd s.payloadAddr] := rfl
@[simp] theorem readPayload_inputs : (s.readPayload).inputs = s.inputs := rfl
@[simp] theorem readPayload_tick : (s.readPayload).tick = s.tick := rfl

/-! `startWrite` -/

@[simp] theorem startWrite_cfg (m : TxMode) (a l : Nat) (n : TxState) : (s.startWrite m a l n).cfg = s.cfg := rfl
@[simp] theorem startWrite_cbslot (m : TxMode) (a l : Nat) (n : TxState) : (s.startWrite m a l n).cbslot = s.cbslot := rfl
@[simp] theorem startWrite_wakeReq (m : TxMode) (a l : Nat) (n : TxState) : (s.startWrite m a l n).wakeReq = s.wakeReq := rfl
@[simp] theorem startWrite_dphase (m : TxMode) (a l : Nat) (n : TxState) : (s.startWrite m a l n).dphase = s.dphase := rfl
@[simp] theorem startWrite_rxbyte (m : TxMode) (a l : Nat) (n : TxState) : (s.startWrite m a l n).rxbyte = s.rxbyte := rfl
@[simp] theorem startWrite_retval (m : TxMode) (a l : Nat) (n : TxState) : (s.startWrite m a l n).retval = s.retval := rfl
@[simp] theorem startWrite_txstate (m : TxMode) (a l : Nat) (n : TxState) : (s.startWrite m a l n).txstate = n := rfl
@[simp] theorem startWrite_txmode (m : TxMode) (a l : Nat) (n : TxState) : (s.startWrite m a l n).txmode = m := rfl
@[simp] theorem startWrite_txbase (m : TxMode) (a l : Nat) (n : TxState) : (s.startWrite m a l n).txbase = a := rfl
@[simp] theorem startWrite_txlen (m : TxMode) (a l : Nat) (n : TxState) : (s.startWrite m a l n).txlen = l := rfl
@[simp] theorem startWrite_txidx (m : TxMode) (a l : Nat) (n : TxState) : (s.startWrite m a l n).txidx = 0 := rfl
@[simp] theorem startWrite_txcur (m : TxMode) (a l : Nat) (n : TxState) : (s.startWrite m a l n).txcur = s.txcur := rfl
@[simp] theorem startWrite_dec (m : TxMode) (a l : Nat) (n : TxState) : (s.startWrite m a l n).dec = s.dec := rfl
@[simp] theorem startWrite_txrdy (m : TxMode) (a l : Nat) (n : TxState) : (s.startWrite m a l n).txrdy = s.txrdy := rfl
@[simp] theorem startWrite_rxbuf (m : TxMode) (a l : Nat) (n : TxState) : (s.startWrite m a l n).rxbuf = s.rxbuf := rfl
@[simp] theorem startWrite_rxifg (m : TxMode) (a l : Nat) (n : TxState) : (s.startWrite m a l n).rxifg = s.rxifg := rfl
@[simp] theorem startWrite_otherifg (m : TxMode) (a l : Nat) (n : TxState) : (s.startWrite m a l n).otherifg = s.otherifg := rfl
@[simp] theorem startWrite_lpm (m : TxMode) (a l : Nat) (n : TxState) : (s.startWrite m a l n).lpm = s.lpm := rfl
@[simp] theorem startWrite_mem (m : TxMode) (a l : Nat) (n : TxState) : (s.startWrite m a l n).mem = s.mem := rfl
@[simp] theorem startWrite_hstate (m : TxMode) (a l : Nat) (n : TxState) : (s.startWrite m a l n).hstate = s.hstate := rfl
@[simp] theorem startWrite_cmdPort (m : TxMode) (a l : Nat) (n : TxState) : (s.startWrite m a l n).cmdPort = s.cmdPort := rfl
@[simp] theorem startWrite_txlog (m : TxMode) (a l : Nat) (n : TxState) : (s.startWrite m a l n).txlog = s.txlog := rfl
@[simp] theorem startWrite_cblog (m : TxMode) (a l : Nat) (n : TxState) : (s.startWrite m a l n).cblog = s.cblog := rfl
@[simp] theorem startWrite_wakelog (m : TxMode) (a l : Nat) (n : TxState) : (s.startWrite m a l n).wakelog = s.wakelog := rfl
@[simp] theorem startWrite_declog (m : TxMode) (a l : Nat) (n : TxState) : (s.startWrite m a l n).declog = s.declog := rfl
@[simp] theorem startWrite_strobes (m : TxMode) (a l : Nat) (n : TxState) : (s.startWrite m a l n).strobes = s.strobes := rfl
@[simp] theorem startWrite_inputs (m : TxMode) (a l : Nat) (n : TxState) : (s.startWrite m a l n).inputs = s.inputs := rfl
@[simp] theorem startWrite_tick (m : TxMode) (a l : Nat) (n : TxState) : (s.startWrite m a l n).tick = s.tick := rfl

/-! `cmdDone` -/

@[simp] theorem cmdDone_cfg : (s.cmdDone).cfg = s.cfg := rfl
@[simp] theorem cmdDone_cbslot : (s.cmdDone).cbslot = s.cbslot := rfl
@[simp] theorem cmdDone_wakeReq : (s.cmdDone).wakeReq = s.wakeReq := rfl
@[simp] theorem cmdDone_dphase : (s.cmdDone).dphase = s.dphase := rfl
@[simp] theorem cmdDone_rxbyte : (s.cmdDone).rxbyte = s.rxbyte := rfl
@[simp] theorem cmdDone_retval : (s.cmdDone).retval = s.retval := rfl
@[simp] theorem cmdDone_txstate : (s.cmdDone).txstate = s.txstate := rfl
@[simp] theorem cmdDone_txmode : (s.cmdDone).txmode = s.txmode := rfl
@[simp] theorem cmdDone_txbase : (s.cmdDone).txbase = s.txbase := rfl
@[simp] theorem cmdDone_txlen : (s.cmdDone).txlen = s.txlen := rfl
@[simp] theorem cmdDone_txidx : (s.cmdDone).txidx = s.txidx := rfl
@[simp] theorem cmdDone_txcur : (s.cmdDone).txcur = s.txcur := rfl
@[simp] theorem cmdDone_dec : (s.cmdDone).dec = s.dec := rfl
@[simp] theorem cmdDone_txrdy : (s.cmdDone).txrdy = s.txrdy := rfl
@[simp] theorem cmdDone_rxbuf : (s.cmdDone).rxbuf = s.rxbuf := rfl
@[simp] theorem cmdDone_rxifg : (s.cmdDone).rxifg = s.rxifg := rfl
@[simp] theorem cmdDone_otherifg : (s.cmdDone).otherifg = s.otherifg := rfl
@[simp] theorem cmdDone_lpm : (s.cmdDone).lpm = s.lpm := rfl
@[simp] theorem cmdDone_mem : (s.cmdDone).mem = s.mem := rfl
@[simp] theorem cmdDone_hstate : (s.cmdDone).hstate = s.hstate := rfl
@[simp] theorem cmdDone_cmdPort : (s.cmdDone).cmdPort = s.cmdPort := rfl
@[simp] theorem cmdDone_txlog : (s.cmdDone).txlog = s.txlog := rfl
@[simp] theorem cmdDone_cblog : (s.cmdDone).cblog = s.cblog := rfl
@[simp] theorem cmdDone_wakelog : (s.cmdDone).wakelog = s.wakelog := rfl
@[simp] theorem cmdDone_declog : (s.cmdDone).declog = s.declog := rfl
@[simp] theorem cmdDone_strobes : (s.cmdDone).strobes = s.strobes ++ [.cmdDone] := rfl
@[simp] theorem cmdDone_inputs : (s.cmdDone).inputs = s.inputs := rfl
@[simp] theorem cmdDone_tick : (s.cmdDone).tick = s.tick := rfl

/-! `advanceFramed` -/

@[simp] theorem advanceFramed_cfg : (s.advanceFramed).cfg = s.cfg := rfl
@[simp] theorem advanceFramed_cbslot : (s.advanceFramed).cbslot = s.cbslot := rfl
@[simp] theorem advanceFramed_wakeReq : (s.advanceFramed).wakeReq = s.wakeReq := rfl
@[simp] theorem advanceFramed_dphase : (s.advanceFramed).dphase = s.dphase := rfl
@[simp] theorem advanceFramed_rxbyte : (s.advanceFramed).rxbyte = s.rxbyte := rfl
@[simp] theorem advanceFramed_retval : (s.advanceFramed).retval = s.retval := rfl
@[simp] theorem advanceFramed_txstate : (s.advanceFramed).txstate = if s.txidx + 1 = s.txlen then .tClose else .tBody := rfl
@[simp] theorem advanceFramed_txmode : (s.advanceFramed).txmode = s.txmode := rfl
@[simp] theorem advanceFramed_txbase : (s.advanceFramed).txbase = s.txbase := rfl
@[simp] theorem advanceFramed_txlen : (s.advanceFramed).txlen = s.txlen := rfl
@[simp] theorem advanceFramed_txidx : (s.advanceFramed).txidx = s.txidx + 1 := rfl
@[simp] theorem advanceFramed_txcur : (s.advanceFramed).txcur = s.txcur := rfl
@[simp] theorem advanceFramed_dec : (s.advanceFramed).dec = s.dec := rfl
@[simp] theorem advanceFramed_txrdy : (s.advanceFramed).txrdy = s.txrdy := rfl
@[simp] theorem advanceFramed_rxbuf : (s.advanceFramed).rxbuf = s.rxbuf := rfl
@[simp] theorem advanceFramed_rxifg : (s.advanceFramed).rxifg = s.rxifg := rfl
@[simp] theorem advanceFramed_otherifg : (s.advanceFramed).otherifg = s.otherifg := rfl
@[simp] theorem advanceFramed_lpm : (s.advanceFramed).lpm = s.lpm := rfl
@[simp] theorem advanceFramed_mem : (s.advanceFramed).mem = s.mem := rfl
@[simp] theorem advanceFramed_hstate : (s.advanceFramed).hstate = s.hstate := rfl
@[simp] theorem advanceFramed_cmdPort : (s.advanceFramed).cmdPort = s.cmdPort := rfl
@[simp] theorem advanceFramed_txlog : (s.advanceFramed).txlog = s.txlog := rfl
@[simp] theorem advanceFramed_cblog : (s.advanceFramed).cblog = s.cblog := rfl
@[simp] theorem advanceFramed_wakelog : (s.advanceFramed).wakelog = s.wakelog := rfl
@[simp] theorem advanceFramed_declog : (s.advanceFramed).declog = s.declog := rfl
@[simp] theorem advanceFramed_strobes : (s.advanceFramed).strobes = s.strobes := rfl
@[simp] theorem advanceFramed_inputs : (s.advanceFramed).inputs = s.inputs := rfl
@[simp] theorem advanceFramed_tick : (s.advanceFramed).tick = s.tick := rfl

/-! `advanceRaw` -/

@[simp] theorem advanceRaw_cfg : (s.advanceRaw).cfg = s.cfg := rfl
@[simp] theorem advanceRaw_cbslot : (s.advanceRaw).cbslot = s.cbslot := rfl
@[simp] theorem advanceRaw_wakeReq : (s.advanceRaw).wakeReq = s.wakeReq := rfl
@[simp] theorem advanceRaw_dphase : (s.advanceRaw).dphase = s.dphase := rfl
@[simp] theorem advanceRaw_rxbyte : (s.advanceRaw).rxbyte = s.rxbyte := rfl
@[simp] theorem advanceRaw_retval : (s.advanceRaw).retval = s.retval := rfl
@[simp] theorem advanceRaw_txstate : (s.advanceRaw).txstate = if s.txidx + 1 = s.txlen then .tIdle else .tBody := rfl
@[simp] theorem advanceRaw_txmode : (s.advanceRaw).txmode = s.txmode := rfl
@[simp] theorem advanceRaw_txbase : (s.advanceRaw).txbase = s.txbase := rfl
@[simp] theorem advanceRaw_txlen : (s.advanceRaw).txlen = s.txlen := rfl
@[simp] theorem advanceRaw_txidx : (s.advanceRaw).txidx = s.txidx + 1 := rfl
@[simp] theorem advanceRaw_txcur : (s.advanceRaw).txcur = s.txcur := rfl
@[simp] theorem advanceRaw_dec : (s.advanceRaw).dec = s.dec := rfl
@[simp] theorem advanceRaw_txrdy : (s.advanceRaw).txrdy = s.txrdy := rfl
@[simp] theorem advanceRaw_rxbuf : (s.advanceRaw).rxbuf = s.rxbuf := rfl
@[simp] theorem advanceRaw_rxifg : (s.advanceRaw).rxifg = s.rxifg := rfl
@[simp] theorem advanceRaw_otherifg : (s.advanceRaw).otherifg = s.otherifg := rfl
@[simp] theorem advanceRaw_lpm : (s.advanceRaw).lpm = s.lpm := rfl
@[simp] theorem advanceRaw_mem : (s.advanceRaw).mem = s.mem := rfl
@[simp] theorem advanceRaw_hstate : (s.advanceRaw).hstate = s.hstate := rfl
@[simp] theorem advanceRaw_cmdPort : (s.advanceRaw).cmdPort = s.cmdPort := rfl
@[simp] theorem advanceRaw_txlog : (s.advanceRaw).txlog = s.txlog := rfl
@[simp] theorem advanceRaw_cblog : (s.advanceRaw).cblog = s.cblog := rfl
@[simp] theorem advanceRaw_wakelog : (s.advanceRaw).wakelog = s.wakelog := rfl
@[simp] theorem advanceRaw_declog : (s.advanceRaw).declog = s.declog := rfl
@[simp] theorem advanceRaw_strobes : (s.advanceRaw).strobes = if s.txidx + 1 = s.txlen then s.strobes ++ [.cmdDone] else s.strobes := rfl
@[simp] theorem advanceRaw_inputs : (s.advanceRaw).inputs = s.inputs := rfl
@[simp] theorem advanceRaw_tick : (s.advanceRaw).tick = s.tick := rfl

/-! `emitEscape` -/

@[simp] theorem emitEscape_cfg (b : Byte) : (s.emitEscape b).cfg = s.cfg := rfl
@[simp] theorem emitEscape_cbslot (b : Byte) : (s.emitEscape b).cbslot = s.cbslot := rfl
@[simp] theorem emitEscape_wakeReq (b : Byte) : (s.emitEscape b).wakeReq = s.wakeReq := rfl
@[simp] theorem emitEscape_dphase (b : Byte) : (s.emitEscape b).dphase = s.dphase := rfl
@[simp] theorem emitEscape_rxbyte (b : Byte) : (s.emitEscape b).rxbyte = s.rxbyte := rfl
@[simp] theorem emitEscape_retval (b : Byte) : (s.emitEscape b).retval = s.retval := rfl
@[simp] theorem emitEscape_txstate (b : Byte) : (s.emitEscape b).txstate = .tEsc2 := rfl
@[simp] theorem emitEscape_txmode (b : Byte) : (s.emitEscape b).txmode = s.txmode := rfl
@[simp] theorem emitEscape_txbase (b : Byte) : (s.emitEscape b).txbase = s.txbase := rfl
@[simp] theorem emitEscape_txlen (b : Byte) : (s.emitEscape b).txlen = s.txlen := rfl
@[simp] theorem emitEscape_txidx (b : Byte) : (s.emitEscape b).txidx = s.txidx := rfl
@[simp] theorem emitEscape_txcur (b : Byte) : (s.emitEscape b).txcur = b := rfl
@[simp] theorem emitEscape_dec (b : Byte) : (s.emitEscape b).dec = s.dec := rfl
@[simp] theorem emitEscape_txrdy (b : Byte) : (s.emitEscape b).txrdy = false := rfl
@[simp] theorem emitEscape_rxbuf (b : Byte) : (s.emitEscape b).rxbuf = s.rxbuf := rfl
@[simp] theorem emitEscape_rxifg (b : Byte) : (s.emitEscape b).rxifg = s.rxifg := rfl
@[simp] theorem emitEscape_otherifg (b : Byte) : (s.emitEscape b).otherifg = s.otherifg := rfl
@[simp] theorem emitEscape_lpm (b : Byte) : (s.emitEscape b).lpm = s.lpm := rfl
@[simp] theorem emitEscape_mem (b : Byte) : (s.emitEscape b).mem = s.mem := rfl
@[simp] theorem emitEscape_hstate (b : Byte) : (s.emitEscape b).hstate = s.hstate := rfl
@[simp] theorem emitEscape_cmdPort (b : Byte) : (s.emitEscape b).cmdPort = s.cmdPort := rfl
@[simp] theorem emitEscape_txlog (b : Byte) : (s.emitEscape b).txlog = s.txlog ++ [s.cfg.escape] := rfl
@[simp] theorem emitEscape_cblog (b : Byte) : (s.emitEscape b).cblog = s.cblog := rfl
@[simp] theorem emitEscape_wakelog (b : Byte) : (s.emitEscape b).wakelog = s.wakelog := rfl
@[simp] theorem emitEscape_declog (b : Byte) : (s.emitEscape b).declog = s.declog := rfl
@[simp] theorem emitEscape_strobes (b : Byte) : (s.emitEscape b).strobes = s.strobes ++ [.memRd s.payloadAddr] ++ [.txWrite s.cfg.escape] := rfl
@[simp] theorem emitEscape_inputs (b : Byte) : (s.emitEscape b).inputs = s.inputs := rfl
@[simp] theorem emitEscape_tick (b : Byte) : (s.emitEscape b).tick = s.tick := rfl

/-! `takeInterrupt` -/

@[simp] theorem takeInterrupt_cfg : (s.takeInterrupt).cfg = s.cfg := rfl
@[simp] theorem takeInterrupt_cbslot : (s.takeInterrupt).cbslot = s.cbslot := rfl
@[simp] theorem takeInterrupt_wakeReq : (s.takeInterrupt).wakeReq = s.wakeReq := rfl
@[simp] theorem takeInterrupt_dphase : (s.takeInterrupt).dphase = .dIdent := rfl
@[simp] theorem takeInterrupt_rxbyte : (s.takeInterrupt).rxbyte = s.rxbyte := rfl
@[simp] theorem takeInterrupt_retval : (s.takeInterrupt).retval = s.retval := rfl
@[simp] theorem takeInterrupt_txstate : (s.takeInterrupt).txstate = s.txstate := rfl
@[simp] theorem takeInterrupt_txmode : (s.takeInterrupt).txmode = s.txmode := rfl
@[simp] theorem takeInterrupt_txbase : (s.takeInterrupt).txbase = s.txbase := rfl
@[simp] theorem takeInterrupt_txlen : (s.takeInterrupt).txlen = s.txlen := rfl
@[simp] theorem takeInterrupt_txidx : (s.takeInterrupt).txidx = s.txidx := rfl
@[simp] theorem takeInterrupt_txcur : (s.takeInterrupt).txcur = s.txcur := rfl
@[simp] theorem takeInterrupt_dec : (s.takeInterrupt).dec = s.dec := rfl
@[simp] theorem takeInterrupt_txrdy : (s.takeInterrupt).txrdy = s.txrdy := rfl
@[simp] theorem takeInterrupt_rxbuf : (s.takeInterrupt).rxbuf = s.rxbuf := rfl
@[simp] theorem takeInterrupt_rxifg : (s.takeInterrupt).rxifg = s.rxifg := rfl
@[simp] theorem takeInterrupt_otherifg : (s.takeInterrupt).otherifg = s.otherifg := rfl
@[simp] theorem takeInterrupt_lpm : (s.takeInterrupt).lpm = s.lpm := rfl
@[simp] theorem takeInterrupt_mem : (s.takeInterrupt).mem = s.mem := rfl
@[simp] theorem takeInterrupt_hstate : (s.takeInterrupt).hstate = s.hstate := rfl
@[simp] theorem takeInterrupt_cmdPort : (s.takeInterrupt).cmdPort = s.cmdPort := rfl
@[simp] theorem takeInterrupt_txlog : (s.takeInterrupt).txlog = s.txlog := rfl
@[simp] theorem takeInterrupt_cblog : (s.takeInterrupt).cblog = s.cblog := rfl
@[simp] theorem takeInterrupt_wakelog : (s.takeInterrupt).wakelog = s.wakelog := rfl
@[simp] theorem takeInterrupt_declog : (s.takeInterrupt).declog = s.declog := rfl
@[simp] theorem takeInterrupt_strobes : (s.takeInterrupt).strobes = s.strobes := rfl
@[simp] theorem takeInterrupt_inputs : (s.takeInterrupt).inputs = s.inputs := rfl
@[simp] theorem takeInterrupt_tick : (s.takeInterrupt).tick = s.tick := rfl

/-! `ignoreEvent` -/

@[simp] theorem ignoreEvent_cfg : (s.ignoreEvent).cfg = s.cfg := rfl
@[simp] theorem ignoreEvent_cbslot : (s.ignoreEvent).cbslot = s.cbslot := rfl
@[simp] theorem ignoreEvent_wakeReq : (s.ignoreEvent).wakeReq = s.wakeReq := rfl
@[simp] theorem ignoreEvent_dphase : (s.ignoreEvent).dphase = .dExit := rfl
@[simp] theorem ignoreEvent_rxbyte : (s.ignoreEvent).rxbyte = s.rxbyte := rfl
@[simp] theorem ignoreEvent_retval : (s.ignoreEvent).retval = s.retval := rfl
@[simp] theorem ignoreEvent_txstate : (s.ignoreEvent).txstate = s.txstate := rfl
@[simp] theorem ignoreEvent_txmode : (s.ignoreEvent).txmode = s.txmode := rfl
@[simp] theorem ignoreEvent_txbase : (s.ignoreEvent).txbase = s.txbase := rfl
@[simp] theorem ignoreEvent_txlen : (s.ignoreEvent).txlen = s.txlen := rfl
@[simp] theorem ignoreEvent_txidx : (s.ignoreEvent).txidx = s.txidx := rfl
@[simp] theorem ignoreEvent_txcur : (s.ignoreEvent).txcur = s.txcur := rfl
@[simp] theorem ignoreEvent_dec : (s.ignoreEvent).dec = s.dec := rfl
@[simp] theorem ignoreEvent_txrdy : (s.ignoreEvent).txrdy = s.txrdy := rfl
@[simp] theorem ignoreEvent_rxbuf : (s.ignoreEvent).rxbuf = s.rxbuf := rfl
@[simp] theorem ignoreEvent_rxifg : (s.ignoreEvent).rxifg = s.rxifg := rfl
@[simp] theorem ignoreEvent_otherifg : (s.ignoreEvent).otherifg = s.otherifg := rfl
@[simp] theorem ignoreEvent_lpm : (s.ignoreEvent).lpm = s.lpm := rfl
@[simp] theorem ignoreEvent_mem : (s.ignoreEvent).mem = s.mem := rfl
@[simp] theorem ignoreEvent_hstate : (s.ignoreEvent).hstate = s.hstate := rfl
@[simp] theorem ignoreEvent_cmdPort : (s.ignoreEvent).cmdPort = s.cmdPort := rfl
@[simp] theorem ignoreEvent_txlog : (s.ignoreEvent).txlog = s.txlog := rfl
@[simp] theorem ignoreEvent_cblog : (s.ignoreEvent).cblog = s.cblog := rfl
@[simp] theorem ignoreEvent_wakelog : (s.ignoreEvent).wakelog = s.wakelog := rfl
@[simp] theorem ignoreEvent_declog : (s.ignoreEvent).declog = s.declog := rfl
@[simp] theorem ignoreEvent_strobes : (s.ignoreEvent).strobes = s.strobes := rfl
@[simp] theorem ignoreEvent_inputs : (s.ignoreEvent).inputs = s.inputs := rfl
@[simp] theorem ignoreEvent_tick : (s.ignoreEvent).tick = s.tick := rfl

/-! `rxRead` -/

@[simp] theorem rxRead_cfg : (s.rxRead).cfg = s.cfg := rfl
@[simp] theorem rxRead_cbslot : (s.rxRead).cbslot = s.cbslot := rfl
@[simp] theorem rxRead_wakeReq : (s.rxRead).wakeReq = s.wakeReq := rfl
@[simp] theorem rxRead_dphase : (s.rxRead).dphase = .dCall := rfl
@[simp] theorem rxRead_rxbyte : (s.rxRead).rxbyte = s.rxbuf := rfl
@[simp] theorem rxRead_retval : (s.rxRead).retval = s.retval := rfl
@[simp] theorem rxRead_txstate : (s.rxRead).txstate = s.txstate := rfl
@[simp] theorem rxRead_txmode : (s.rxRead).txmode = s.txmode := rfl
@[simp] theorem rxRead_txbase : (s.rxRead).txbase = s.txbase := rfl
@[simp] theorem rxRead_txlen : (s.rxRead).txlen = s.txlen := rfl
@[simp] theorem rxRead_txidx : (s.rxRead).txidx = s.txidx := rfl
@[simp] theorem rxRead_txcur : (s.rxRead).txcur = s.txcur := rfl
@[simp] theorem rxRead_dec : (s.rxRead).dec = s.dec := rfl
@[simp] theorem rxRead_txrdy : (s.rxRead).txrdy = s.txrdy := rfl
@[simp] theorem rxRead_rxbuf : (s.rxRead).rxbuf = s.rxbuf := rfl
@[simp] theorem rxRead_rxifg : (s.rxRead).rxifg = false := rfl
@[simp] theorem rxRead_otherifg : (s.rxRead).otherifg = s.otherifg := rfl
@[simp] theorem rxRead_lpm : (s.rxRead).lpm = s.lpm := rfl
@[simp] theorem rxRead_mem : (s.rxRead).mem = s.mem := rfl
@[simp] theorem rxRead_hstate : (s.rxRead).hstate = s.hstate := rfl
@[simp] theorem rxRead_cmdPort : (s.rxRead).cmdPort = s.cmdPort := rfl
@[simp] theorem rxRead_txlog : (s.rxRead).txlog = s.txlog := rfl
@[simp] theorem rxRead_cblog : (s.rxRead).cblog = s.cblog := rfl
@[simp] theorem rxRead_wakelog : (s.rxRead).wakelog = s.wakelog := rfl
@[simp] theorem rxRead_declog : (s.rxRead).declog = s.declog := rfl
@[simp] theorem rxRead_strobes : (s.rxRead).strobes = s.strobes ++ [.rxRead] := rfl
@[simp] theorem rxRead_inputs : (s.rxRead).inputs = s.inputs := rfl
@[simp] theorem rxRead_tick : (s.rxRead).tick = s.tick := rfl

/-! `finishCall` -/

@[simp] theorem finishCall_cfg (r : Nat) : (s.finishCall r).cfg = s.cfg := rfl
@[simp] theorem finishCall_cbslot (r : Nat) : (s.finishCall r).cbslot = s.cbslot := rfl
@[simp] theorem finishCall_wakeReq (r : Nat) : (s.finishCall r).wakeReq = (s.wakeReq || truthy r) := rfl
@[simp] theorem finishCall_dphase (r : Nat) : (s.finishCall r).dphase = .dExit := rfl
@[simp] theorem finishCall_rxbyte (r : Nat) : (s.finishCall r).rxbyte = s.rxbyte := rfl
@[simp] theorem finishCall_retval (r : Nat) : (s.finishCall r).retval = r := rfl
@[simp] theorem finishCall_txstate (r : Nat) : (s.finishCall r).txstate = s.txstate := rfl
@[simp] theorem finishCall_txmode (r : Nat) : (s.finishCall r).txmode = s.txmode := rfl
@[simp] theorem finishCall_txbase (r : Nat) : (s.finishCall r).txbase = s.txbase := rfl
@[simp] theorem finishCall_txlen (r : Nat) : (s.finishCall r).txlen = s.txlen := rfl
@[simp] theorem finishCall_txidx (r : Nat) : (s.finishCall r).txidx = s.txidx := rfl
@[simp] theorem finishCall_txcur (r : Nat) : (s.finishCall r).txcur = s.txcur := rfl
@[simp] theorem finishCall_dec (r : Nat) : (s.finishCall r).dec = s.dec := rfl
@[simp] theorem finishCall_txrdy (r : Nat) : (s.finishCall r).txrdy = s.txrdy := rfl
@[simp] theorem finishCall_rxbuf (r : Nat) : (s.finishCall r).rxbuf = s.rxbuf := rfl
@[simp] theorem finishCall_rxifg (r : Nat) : (s.finishCall r).rxifg = s.rxifg := rfl
@[simp] theorem finishCall_otherifg (r : Nat) : (s.finishCall r).otherifg = s.otherifg := rfl
@[simp] theorem finishCall_lpm (r : Nat) : (s.finishCall r).lpm = s.lpm := rfl
@[simp] theorem finishCall_mem (r : Nat) : (s.finishCall r).mem = s.mem := rfl
@[simp] theorem finishCall_hstate (r : Nat) : (s.finishCall r).hstate = s.hstate := rfl
@[simp] theorem finishCall_cmdPort (r : Nat) : (s.finishCall r).cmdPort = s.cmdPort := rfl
@[simp] theorem finishCall_txlog (r : Nat) : (s.finishCall r).txlog = s.txlog := rfl
@[simp] theorem finishCall_cblog (r : Nat) : (s.finishCall r).cblog = s.cblog ++ [⟨s.cbslot, s.rxbyte, r⟩] := rfl
@[simp] theorem finishCall_wakelog (r : Nat) : (s.finishCall r).wakelog = s.wakelog := rfl
@[simp] theorem finishCall_declog (r : Nat) : (s.finishCall r).declog = s.declog := rfl
@[simp] theorem finishCall_strobes (r : Nat) : (s.finishCall r).strobes = s.strobes := rfl
@[simp] theorem finishCall_inputs (r : Nat) : (s.finishCall r).inputs = s.inputs := rfl
@[simp] theorem finishCall_tick (r : Nat) : (s.finishCall r).tick = s.tick := rfl

/-! `finishDecoder` -/

@[simp] theorem finishDecoder_cfg (r : DecResult) : (s.finishDecoder r).cfg = s.cfg := rfl
@[simp] theorem finishDecoder_cbslot (r : DecResult) : (s.finishDecoder r).cbslot = s.cbslot := rfl
@[simp] theorem finishDecoder_wakeReq (r : DecResult) : (s.finishDecoder r).wakeReq = (s.wakeReq || truthy r.ret) := rfl
@[simp] theorem finishDecoder_dphase (r : DecResult) : (s.finishDecoder r).dphase = .dExit := rfl
@[simp] theorem finishDecoder_rxbyte (r : DecResult) : (s.finishDecoder r).rxbyte = s.rxbyte := rfl
@[simp] theorem finishDecoder_retval (r : DecResult) : (s.finishDecoder r).retval = r.ret := rfl
@[simp] theorem finishDecoder_txstate (r : DecResult) : (s.finishDecoder r).txstate = s.txstate := rfl
@[simp] theorem finishDecoder_txmode (r : DecResult) : (s.finishDecoder r).txmode = s.txmode := rfl
@[simp] theorem finishDecoder_txbase (r : DecResult) : (s.finishDecoder r).txbase = s.txbase := rfl
@[simp] theorem finishDecoder_txlen (r : DecResult) : (s.finishDecoder r).txlen = s.txlen := rfl
@[simp] theorem finishDecoder_txidx (r : DecResult) : (s.finishDecoder r).txidx = s.txidx := rfl
@[simp] theorem finishDecoder_txcur (r : DecResult) : (s.finishDecoder r).txcur = s.txcur := rfl
@[simp] theorem finishDecoder_dec (r : DecResult) : (s.finishDecoder r).dec = r.dec := rfl
@[simp] theorem finishDecoder_txrdy (r : DecResult) : (s.finishDecoder r).txrdy = s.txrdy := rfl
@[simp] theorem finishDecoder_rxbuf (r : DecResult) : (s.finishDecoder r).rxbuf = s.rxbuf := rfl
@[simp] theorem finishDecoder_rxifg (r : DecResult) : (s.finishDecoder r).rxifg = s.rxifg := rfl
@[simp] theorem finishDecoder_otherifg (r : DecResult) : (s.finishDecoder r).otherifg = s.otherifg := rfl
@[simp] theorem finishDecoder_lpm (r : DecResult) : (s.finishDecoder r).lpm = s.lpm := rfl
@[simp] theorem finishDecoder_mem (r : DecResult) : (s.finishDecoder r).mem = s.mem := rfl
@[simp] theorem finishDecoder_hstate (r : DecResult) : (s.finishDecoder r).hstate = s.hstate := rfl
@[simp] theorem finishDecoder_cmdPort (r : DecResult) : (s.finishDecoder r).cmdPort = s.cmdPort := rfl
@[simp] theorem finishDecoder_txlog (r : DecResult) : (s.finishDecoder r).txlog = s.txlog := rfl
@[simp] theorem finishDecoder_cblog (r : DecResult) : (s.finishDecoder r).cblog = s.cblog ++ [⟨s.cbslot, s.rxbyte, r.ret⟩] := rfl
@[simp] theorem finishDecoder_wakelog (r : DecResult) : (s.finishDecoder r).wakelog = s.wakelog := rfl
@[simp] theorem finishDecoder_declog (r : DecResult) : (s.finishDecoder r).declog = s.declog ++ r.event.toList := rfl
@[simp] theorem finishDecoder_strobes (r : DecResult) : (s.finishDecoder r).strobes = s.strobes ++ eventStrobes r.event := rfl
@[simp] theorem finishDecoder_inputs (r : DecResult) : (s.finishDecoder r).inputs = s.inputs := rfl
@[simp] theorem finishDecoder_tick (r : DecResult) : (s.finishDecoder r).tick = s.tick := rfl

/-! `warmReset` -/

@[simp] theorem warmReset_cfg (d : HoldDraw) : (s.warmReset d).cfg = s.cfg := rfl
@[simp] theorem warmReset_cbslot (d : HoldDraw) : (s.warmReset d).cbslot = hDefault := rfl
@[simp] theorem warmReset_wakeReq (d : HoldDraw) : (s.warmReset d).wakeReq = false := rfl
@[simp] theorem warmReset_dphase (d : HoldDraw) : (s.warmReset d).dphase = .dIdle := rfl
@[simp] theorem warmReset_rxbyte (d : HoldDraw) : (s.warmReset d).rxbyte = d.rxbyte := rfl
@[simp] theorem warmReset_retval (d : HoldDraw) : (s.warmReset d).retval = d.retval := rfl
@[simp] theorem warmReset_txstate (d : HoldDraw) : (s.warmReset d).txstate = .tIdle := rfl
@[simp] theorem warmReset_txmode (d : HoldDraw) : (s.warmReset d).txmode = d.txmode := rfl
@[simp] theorem warmReset_txbase (d : HoldDraw) : (s.warmReset d).txbase = d.txbase := rfl
@[simp] theorem warmReset_txlen (d : HoldDraw) : (s.warmReset d).txlen = d.txlen := rfl
@[simp] theorem warmReset_txidx (d : HoldDraw) : (s.warmReset d).txidx = d.txidx := rfl
@[simp] theorem warmReset_txcur (d : HoldDraw) : (s.warmReset d).txcur = d.txcur := rfl
@[simp] theorem warmReset_dec (d : HoldDraw) : (s.warmReset d).dec = ⟨.hunt, false, []⟩ := rfl
@[simp] theorem warmReset_txrdy (d : HoldDraw) : (s.warmReset d).txrdy = s.txrdy := rfl
@[simp] theorem warmReset_rxbuf (d : HoldDraw) : (s.warmReset d).rxbuf = s.rxbuf := rfl
@[simp] theorem warmReset_rxifg (d : HoldDraw) : (s.warmReset d).rxifg = s.rxifg := rfl
@[simp] theorem warmReset_otherifg (d : HoldDraw) : (s.warmReset d).otherifg = s.otherifg := rfl
@[simp] theorem warmReset_lpm (d : HoldDraw) : (s.warmReset d).lpm = false := rfl
@[simp] theorem warmReset_mem (d : HoldDraw) : (s.warmReset d).mem = s.mem := rfl
@[simp] theorem warmReset_hstate (d : HoldDraw) : (s.warmReset d).hstate = s.hstate := rfl
@[simp] theorem warmReset_cmdPort (d : HoldDraw) : (s.warmReset d).cmdPort = s.cmdPort := rfl
@[simp] theorem warmReset_txlog (d : HoldDraw) : (s.warmReset d).txlog = s.txlog := rfl
@[simp] theorem warmReset_cblog (d : HoldDraw) : (s.warmReset d).cblog = s.cblog := rfl
@[simp] theorem warmReset_wakelog (d : HoldDraw) : (s.warmReset d).wakelog = s.wakelog := rfl
@[simp] theorem warmReset_declog (d : HoldDraw) : (s.warmReset d).declog = s.declog := rfl
@[simp] theorem warmReset_strobes (d : HoldDraw) : (s.warmReset d).strobes = s.strobes := rfl
@[simp] theorem warmReset_inputs (d : HoldDraw) : (s.warmReset d).inputs = s.inputs := rfl
@[simp] theorem warmReset_tick (d : HoldDraw) : (s.warmReset d).tick = s.tick := rfl

/-! `leaveInterrupt` -/

@[simp] theorem leaveInterrupt_cfg : s.leaveInterrupt.cfg = s.cfg := by
  unfold State.leaveInterrupt; split <;> rfl
@[simp] theorem leaveInterrupt_cbslot : s.leaveInterrupt.cbslot = s.cbslot := by
  unfold State.leaveInterrupt; split <;> rfl
@[simp] theorem leaveInterrupt_wakeReq : s.leaveInterrupt.wakeReq = false := by
  unfold State.leaveInterrupt; split <;> simp_all
@[simp] theorem leaveInterrupt_dphase : s.leaveInterrupt.dphase = .dIdle := by
  unfold State.leaveInterrupt; split <;> simp_all
@[simp] theorem leaveInterrupt_rxbyte : s.leaveInterrupt.rxbyte = s.rxbyte := by
  unfold State.leaveInterrupt; split <;> rfl
@[simp] theorem leaveInterrupt_retval : s.leaveInterrupt.retval = s.retval := by
  unfold State.leaveInterrupt; split <;> rfl
@[simp] theorem leaveInterrupt_txstate : s.leaveInterrupt.txstate = s.txstate := by
  unfold State.leaveInterrupt; split <;> rfl
@[simp] theorem leaveInterrupt_txmode : s.leaveInterrupt.txmode = s.txmode := by
  unfold State.leaveInterrupt; split <;> rfl
@[simp] theorem leaveInterrupt_txbase : s.leaveInterrupt.txbase = s.txbase := by
  unfold State.leaveInterrupt; split <;> rfl
@[simp] theorem leaveInterrupt_txlen : s.leaveInterrupt.txlen = s.txlen := by
  unfold State.leaveInterrupt; split <;> rfl
@[simp] theorem leaveInterrupt_txidx : s.leaveInterrupt.txidx = s.txidx := by
  unfold State.leaveInterrupt; split <;> rfl
@[simp] theorem leaveInterrupt_txcur : s.leaveInterrupt.txcur = s.txcur := by
  unfold State.leaveInterrupt; split <;> rfl
@[simp] theorem leaveInterrupt_dec : s.leaveInterrupt.dec = s.dec := by
  unfold State.leaveInterrupt; split <;> rfl
@[simp] theorem leaveInterrupt_txrdy : s.leaveInterrupt.txrdy = s.txrdy := by
  unfold State.leaveInterrupt; split <;> rfl
@[simp] theorem leaveInterrupt_rxbuf : s.leaveInterrupt.rxbuf = s.rxbuf := by
  unfold State.leaveInterrupt; split <;> rfl
@[simp] theorem leaveInterrupt_rxifg : s.leaveInterrupt.rxifg = s.rxifg := by
  unfold State.leaveInterrupt; split <;> rfl
@[simp] theorem leaveInterrupt_otherifg : s.leaveInterrupt.otherifg = s.otherifg := by
  unfold State.leaveInterrupt; split <;> rfl
@[simp] theorem leaveInterrupt_lpm : s.leaveInterrupt.lpm = if s.wakeReq then false else s.lpm := by
  unfold State.leaveInterrupt; split <;> simp_all
@[simp] theorem leaveInterrupt_mem : s.leaveInterrupt.mem = s.mem := by
  unfold State.leaveInterrupt; split <;> rfl
@[simp] theorem leaveInterrupt_hstate : s.leaveInterrupt.hstate = s.hstate := by
  unfold State.leaveInterrupt; split <;> rfl
@[simp] theorem leaveInterrupt_cmdPort : s.leaveInterrupt.cmdPort = s.cmdPort := by
  unfold State.leaveInterrupt; split <;> rfl
@[simp] theorem leaveInterrupt_txlog : s.leaveInterrupt.txlog = s.txlog := by
  unfold State.leaveInterrupt; split <;> rfl
@[simp] theorem leaveInterrupt_cblog : s.leaveInterrupt.cblog = s.cblog := by
  unfold State.leaveInterrupt; split <;> rfl
@[simp] theorem leaveInterrupt_wakelog : s.leaveInterrupt.wakelog = if s.wakeReq then s.wakelog ++ [s.cblog.length] else s.wakelog := by
  unfold State.leaveInterrupt; split <;> simp_all
@[simp] theorem leaveInterrupt_declog : s.leaveInterrupt.declog = s.declog := by
  unfold State.leaveInterrupt; split <;> rfl
@[simp] theorem leaveInterrupt_strobes : s.leaveInterrupt.strobes = if s.wakeReq then s.strobes ++ [.wake] else s.strobes := by
  unfold State.leaveInterrupt; split <;> simp_all
@[simp] theorem leaveInterrupt_inputs : s.leaveInterrupt.inputs = s.inputs := by
  unfold State.leaveInterrupt; split <;> rfl
@[simp] theorem leaveInterrupt_tick : s.leaveInterrupt.tick = s.tick := by
  unfold State.leaveInterrupt; split <;> rfl

/-! `beginStep`: only the model's own fields change. -/

@[simp] theorem beginStep_cfg : (beginStep s).cfg = s.cfg := by
  unfold beginStep; split <;> rfl
@[simp] theorem beginStep_cbslot : (beginStep s).cbslot = s.cbslot := by
  unfold beginStep; split <;> rfl
@[simp] theorem beginStep_wakeReq : (beginStep s).wakeReq = s.wakeReq := by
  unfold beginStep; split <;> rfl
@[simp] theorem beginStep_dphase : (beginStep s).dphase = s.dphase := by
  unfold beginStep; split <;> rfl
@[simp] theorem beginStep_rxbyte : (beginStep s).rxbyte = s.rxbyte := by
  unfold beginStep; split <;> rfl
@[simp] theorem beginStep_retval : (beginStep s).retval = s.retval := by
  unfold beginStep; split <;> rfl
@[simp] theorem beginStep_txstate : (beginStep s).txstate = s.txstate := by
  unfold beginStep; split <;> rfl
@[simp] theorem beginStep_txmode : (beginStep s).txmode = s.txmode := by
  unfold beginStep; split <;> rfl
@[simp] theorem beginStep_txbase : (beginStep s).txbase = s.txbase := by
  unfold beginStep; split <;> rfl
@[simp] theorem beginStep_txlen : (beginStep s).txlen = s.txlen := by
  unfold beginStep; split <;> rfl
@[simp] theorem beginStep_txidx : (beginStep s).txidx = s.txidx := by
  unfold beginStep; split <;> rfl
@[simp] theorem beginStep_txcur : (beginStep s).txcur = s.txcur := by
  unfold beginStep; split <;> rfl
@[simp] theorem beginStep_dec : (beginStep s).dec = s.dec := by
  unfold beginStep; split <;> rfl
@[simp] theorem beginStep_txrdy : (beginStep s).txrdy = s.txrdy := by
  unfold beginStep; split <;> rfl
@[simp] theorem beginStep_rxbuf : (beginStep s).rxbuf = s.rxbuf := by
  unfold beginStep; split <;> rfl
@[simp] theorem beginStep_rxifg : (beginStep s).rxifg = s.rxifg := by
  unfold beginStep; split <;> rfl
@[simp] theorem beginStep_otherifg : (beginStep s).otherifg = s.otherifg := by
  unfold beginStep; split <;> rfl
@[simp] theorem beginStep_lpm : (beginStep s).lpm = s.lpm := by
  unfold beginStep; split <;> rfl
@[simp] theorem beginStep_mem : (beginStep s).mem = s.mem := by
  unfold beginStep; split <;> rfl
@[simp] theorem beginStep_hstate : (beginStep s).hstate = s.hstate := by
  unfold beginStep; split <;> rfl
@[simp] theorem beginStep_cmdPort : (beginStep s).cmdPort = s.cmdPort := by
  unfold beginStep; split <;> rfl
@[simp] theorem beginStep_txlog : (beginStep s).txlog = s.txlog := by
  unfold beginStep; split <;> rfl
@[simp] theorem beginStep_cblog : (beginStep s).cblog = s.cblog := by
  unfold beginStep; split <;> rfl
@[simp] theorem beginStep_wakelog : (beginStep s).wakelog = s.wakelog := by
  unfold beginStep; split <;> rfl
@[simp] theorem beginStep_declog : (beginStep s).declog = s.declog := by
  unfold beginStep; split <;> rfl
@[simp] theorem beginStep_strobes : (beginStep s).strobes = [] := by
  unfold beginStep; split <;> rfl

/-! Derived reads. -/

@[simp] theorem beginStep_payloadAddr : (beginStep s).payloadAddr = s.payloadAddr := by
  simp [State.payloadAddr]

@[simp] theorem beginStep_mlRun : (beginStep s).mlRun = s.mlRun := by simp [State.mlRun]

@[simp] theorem beginStep_cmdReady : (beginStep s).cmdReady = s.cmdReady := by simp [State.cmdReady]

@[simp] theorem beginStep_txEnabled : (beginStep s).txEnabled = s.txEnabled := by simp [State.txEnabled]

end

end Sys2Proof.Machine
end

