-- ==== Sys2Proof/Laws/Step.lean ====
section
/-! SUPPORT. Inversion: everything an instruction, a move and a step can do, said once. -/

namespace Sys2Proof.Machine

/-! The guards, as propositions. -/

theorem cmdReady_iff (s : State) :
    s.cmdReady = true ↔ s.txstate = .tIdle ∧ s.dphase = .dIdle ∧ s.lpm = false := by
  simp [State.cmdReady, State.mlRun]

theorem txEnabled_iff (s : State) :
    s.txEnabled = true ↔ (s.dphase = .dIdle ∧ s.lpm = false) ∧ s.txrdy = true := by
  simp [State.txEnabled, State.mlRun]

theorem bodyReady_iff (s : State) (m : TxMode) (b : Byte) :
    s.bodyReady m b = true ↔ s.txstate = .tBody ∧ s.txmode = m ∧ s.txEnabled = true ∧ s.payloadByte = some b := by
  simp [State.bodyReady, and_assoc]

theorem decoderCalled_iff (s : State) (b : Byte) :
    s.decoderCalled b = true ↔ s.dphase = .dCall ∧ s.cbslot = hDecoder ∧ s.rxbyte = b := by
  simp [State.decoderCalled, and_assoc]

theorem payloadByte_eq_some (s : State) (b : Byte) :
    s.payloadByte = some b ↔ readable s.cfg s.payloadAddr = true ∧ readByte s.mem s.payloadAddr = b := by
  unfold State.payloadByte; split <;> simp_all

theorem isReserved_iff (c : Config) (b : Byte) : isReserved c b = true ↔ b = c.sync ∨ b = c.escape := by
  simp [isReserved]

theorem writeOk_iff (c : Config) (a l : Nat) :
    writeOk c a l = true ↔ a < 2 ^ c.addrW ∧ l < 2 ^ c.lenW ∧ a + l ≤ 2 ^ c.addrW := by
  simp [writeOk, and_assoc]

theorem configOk_iff (c : Config) :
    configOk c = true ↔ (c.sync ≠ c.escape ∧ c.sync ≠ c.escape ^^^ xmask) ∧
      1 ≤ c.addrW ∧ 1 ≤ c.lenW ∧ 2 ≤ c.hidW ∧ 1 ≤ c.retW := by
  simp [configOk, cfgOk, widthsOk, and_assoc]

theorem isExternal_two_le (c : Config) (h : Nat) (hx : isExternal c h = true) : 2 ≤ h := by
  simp [isExternal] at hx; exact hx.1

/-- What `exec` of any instruction can do, when it gives a next state. -/
inductive ExecCase (s : State) : State → Prop where
  | wait : ExecCase s s
  | acceptFrame (a l : Nat) (ready : s.cmdReady = true) (ok : writeOk s.cfg a l = true) :
      ExecCase s (s.startWrite .framed a l .tOpen)
  | acceptEmptyRaw (a : Nat) (ready : s.cmdReady = true) (ok : writeOk s.cfg a 0 = true) :
      ExecCase s (s.startWrite .raw a 0 .tIdle).cmdDone
  | acceptRaw (a l : Nat) (ready : s.cmdReady = true) (ok : writeOk s.cfg a l = true) (pos : l ≠ 0) :
      ExecCase s (s.startWrite .raw a l .tBody)
  | acceptRegister (h : Nat) (ready : s.cmdReady = true) (ok : h < 2 ^ s.cfg.hidW) :
      ExecCase s ({ s with cbslot := h }).cmdDone
  | plain (b : Byte) (ready : s.bodyReady .framed b = true) (ok : isReserved s.cfg b = false) :
      ExecCase s (s.readPayload.txWrite b).advanceFramed
  | escape (b : Byte) (ready : s.bodyReady .framed b = true) (ok : isReserved s.cfg b = true) :
      ExecCase s (s.emitEscape b)
  | raw (b : Byte) (ready : s.bodyReady .raw b = true) : ExecCase s (s.readPayload.txWrite b).advanceRaw
  | read (phase : s.dphase = .dIdent) (pending : s.rxifg = true) : ExecCase s s.rxRead
  | ignore (phase : s.dphase = .dIdent) (quiet : s.rxifg = false) : ExecCase s s.ignoreEvent
  | decoder (called : s.decoderCalled s.rxbyte = true) :
      ExecCase s (s.finishDecoder (decStep s.cfg s.dec s.rxbyte))

/-- A decoder transition, when it is the one the table of R136 selects, is a call of `dec_step`. -/
theorem decoderTransition_cases (st : DecState) (b : Byte) (r : DecResult) (s : State)
    (h : s.dec.state = st → r = decStep s.cfg s.dec b) : ExecCase s (decoderTransition st b r s) := by
  unfold decoderTransition
  split
  · next hg =>
    simp only [Bool.and_eq_true, beq_iff_eq] at hg
    obtain ⟨hc, hs⟩ := hg
    have hb := ((decoderCalled_iff s b).1 hc).2.2
    rw [h hs, ← hb]
    exact .decoder (by rw [hb]; exact hc)
  · exact .wait

theorem wireSymbol_cases (b : Byte) (s : State) : ExecCase s (wireSymbol b s) := by
  unfold wireSymbol
  split
  · next hc =>
    have hb := ((decoderCalled_iff s b).1 hc).2.2
    subst hb
    exact .decoder hc
  · exact .wait

/-- Inversion of `exec`. -/
theorem exec_cases {i : Instr} {s t : State} (hcfg : s.cfg.sync ≠ s.cfg.escape) (h : exec i s = .next t) :
    ExecCase s t := by
  cases i with
  | frameWrite a l =>
    simp only [exec, execFrameWrite] at h
    split at h
    · split at h
      · cases h; exact .acceptFrame a l ‹_› ‹_›
      · cases h
    · cases h; exact .wait
  | rawWrite a l =>
    simp only [exec, execRawWrite] at h
    split at h
    · split at h
      · split at h
        · cases h; subst l; exact .acceptEmptyRaw a ‹_› ‹_›
        · cases h; exact .acceptRaw a l ‹_› ‹_› ‹_›
      · cases h
    · cases h; exact .wait
  | register hid =>
    simp only [exec, execRegister] at h
    split at h
    · split at h
      · cases h; exact .acceptRegister hid ‹_› ‹_›
      · cases h
    · cases h; exact .wait
  | cmdReserved p => cases h
  | wSync => cases h; exact wireSymbol_cases _ _
  | wEscape => cases h; exact wireSymbol_cases _ _
  | wLit b =>
    simp only [exec, execWLit] at h
    split at h
    · cases h; exact .wait
    · cases h; exact wireSymbol_cases _ _
  | decHuntSync => cases h; exact decoderTransition_cases _ _ _ _ fun hs => by simp [decStep, hs]
  | decHuntOther b =>
    simp only [exec, execDecHuntOther] at h
    split at h
    · cases h; exact .wait
    · cases h; exact decoderTransition_cases _ _ _ _ fun hs => by simp [decStep, *]
  | decDataSync => cases h; exact decoderTransition_cases _ _ _ _ fun hs => by simp [decStep, hs]
  | decDataEscape =>
    cases h; exact decoderTransition_cases _ _ _ _ fun hs => by simp [decStep, hs, Ne.symm hcfg]
  | decDataLit b =>
    simp only [exec, execDecDataLit] at h
    split at h
    · cases h; exact .wait
    · next hr =>
      cases h
      have hr' := mt (isReserved_iff s.cfg b).2 hr
      push Not at hr'
      exact decoderTransition_cases _ _ _ _ fun hs => by simp [decStep, hs, hr']
  | decEscSync => cases h; exact decoderTransition_cases _ _ _ _ fun hs => by simp [decStep, hs]
  | decEscOther b =>
    simp only [exec, execDecEscOther] at h
    split at h
    · cases h; exact .wait
    · cases h; exact decoderTransition_cases _ _ _ _ fun hs => by simp [decStep, *]
  | pSync =>
    simp only [exec, execPSync] at h
    split at h
    · cases h; exact .escape _ ‹_› (by simp [isReserved])
    · cases h; exact .wait
  | pEscape =>
    simp only [exec, execPEscape] at h
    split at h
    · cases h; exact .escape _ ‹_› (by simp [isReserved])
    · cases h; exact .wait
  | pPlain b =>
    simp only [exec, execPPlain] at h
    split at h
    · next hg => simp only [Bool.and_eq_true, Bool.not_eq_true'] at hg; cases h; exact .plain b hg.1 hg.2
    · cases h; exact .wait
  | pRaw b =>
    simp only [exec, execPRaw] at h
    split at h
    · cases h; exact .raw b ‹_›
    · cases h; exact .wait
  | irqRx o =>
    simp only [exec, execIrqRx] at h
    split at h
    · next hg => simp only [Bool.and_eq_true, beq_iff_eq] at hg; cases h; exact .read hg.1.1 hg.1.2
    · cases h; exact .wait
  | irqForeign =>
    simp only [exec, execIrqForeign] at h
    split at h
    · next hg =>
      simp only [Bool.and_eq_true, beq_iff_eq, Bool.not_eq_true'] at hg; cases h; exact .ignore hg.1.1 hg.1.2
    · cases h; exact .wait
  | irqNone =>
    simp only [exec, execIrqNone] at h
    split at h
    · next hg =>
      simp only [Bool.and_eq_true, beq_iff_eq, Bool.not_eq_true'] at hg; cases h; exact .ignore hg.1.1 hg.1.2
    · cases h; exact .wait

/-- What one move can do, when it gives a next state. -/
inductive MoveCase : Move → State → State → Prop where
  | wait (m : Move) (s : State) : MoveCase m s s
  | acceptFrame (s : State) (w a l : Nat) (ready : s.cmdReady = true) (waiting : s.cmdPort = some w)
      (word : decode s.cfg .cmd w = .ok (.frameWrite a l)) (ok : writeOk s.cfg a l = true) :
      MoveCase .mainline s (({ s with cmdPort := none }).startWrite .framed a l .tOpen)
  | acceptEmptyRaw (s : State) (w a : Nat) (ready : s.cmdReady = true) (waiting : s.cmdPort = some w)
      (word : decode s.cfg .cmd w = .ok (.rawWrite a 0)) (ok : writeOk s.cfg a 0 = true) :
      MoveCase .mainline s (({ s with cmdPort := none }).startWrite .raw a 0 .tIdle).cmdDone
  | acceptRaw (s : State) (w a l : Nat) (ready : s.cmdReady = true) (waiting : s.cmdPort = some w)
      (word : decode s.cfg .cmd w = .ok (.rawWrite a l)) (ok : writeOk s.cfg a l = true) (pos : l ≠ 0) :
      MoveCase .mainline s (({ s with cmdPort := none }).startWrite .raw a l .tBody)
  | acceptRegister (s : State) (w h : Nat) (ready : s.cmdReady = true) (waiting : s.cmdPort = some w)
      (word : decode s.cfg .cmd w = .ok (.register h)) (ok : h < 2 ^ s.cfg.hidW) :
      MoveCase .mainline s ({ s with cmdPort := none, cbslot := h }).cmdDone
  | plain (s : State) (b : Byte) (ready : s.bodyReady .framed b = true) (ok : isReserved s.cfg b = false) :
      MoveCase .mainline s (s.readPayload.txWrite b).advanceFramed
  | escape (s : State) (b : Byte) (ready : s.bodyReady .framed b = true) (ok : isReserved s.cfg b = true) :
      MoveCase .mainline s (s.emitEscape b)
  | raw (s : State) (b : Byte) (ready : s.bodyReady .raw b = true) :
      MoveCase .mainline s (s.readPayload.txWrite b).advanceRaw
  | opening (s : State) (at' : s.txstate = .tOpen) (ready : s.txEnabled = true) :
      MoveCase .mainline s { s.txWrite s.cfg.sync with txstate := if s.txlen = 0 then .tClose else .tBody }
  | operand (s : State) (at' : s.txstate = .tEsc2) (ready : s.txEnabled = true) :
      MoveCase .mainline s (s.txWrite (s.txcur ^^^ xmask)).advanceFramed
  | closing (s : State) (at' : s.txstate = .tClose) (ready : s.txEnabled = true) :
      MoveCase .mainline s ({ s.txWrite s.cfg.sync with txstate := .tIdle }).cmdDone
  | enter (s : State) (phase : s.dphase = .dIdle) (pending : s.irq = true) : MoveCase .interrupt s s.takeInterrupt
  | read (s : State) (phase : s.dphase = .dIdent) (pending : s.rxifg = true) : MoveCase .interrupt s s.rxRead
  | ignore (s : State) (phase : s.dphase = .dIdent) (quiet : s.rxifg = false) :
      MoveCase .interrupt s s.ignoreEvent
  | default (s : State) (phase : s.dphase = .dCall) (slot : s.cbslot = hDefault) :
      MoveCase .interrupt s (s.finishCall 0)
  | decoder (s : State) (phase : s.dphase = .dCall) (slot : s.cbslot = hDecoder) :
      MoveCase .interrupt s (s.finishDecoder (decStep s.cfg s.dec s.rxbyte))
  | leave (s : State) (phase : s.dphase = .dExit) : MoveCase .interrupt s s.leaveInterrupt
  | answer (s : State) (a : HandlerAnswer) (phase : s.dphase = .dCall) (ext : isExternal s.cfg s.cbslot = true)
      (ok : answerOk s.cfg a = true) :
      MoveCase (.cbDone a) s (({ s with hstate := a.hstate, mem := writeBytes s.mem a.writes }).finishCall a.ret)
  | present (s : State) (w : Nat) (ok : w < 2 ^ s.cfg.cmdW) (free : s.cmdPort = none) :
      MoveCase (.present w) s { s with cmdPort := some w }
  | ack (s : State) : MoveCase .txAck s { s with txrdy := true }
  | overrun (s : State) (v draw : Byte) (held : Bool) (pending : s.rxifg = true) :
      MoveCase (.rx v draw held) s { s with rxbuf := draw }
  | arrive (s : State) (v draw : Byte) (held : Bool) (quiet : s.rxifg = false)
      (kept : s.dphase = .dIdle ∨ held = true) :
      MoveCase (.rx v draw held) s { s with rxbuf := v, rxifg := true }
  | foreign (s : State) (b : Bool) : MoveCase (.foreign b) s { s with otherifg := b }
  | sleep (s : State) (ready : s.cmdReady = true) : MoveCase .sleep s { s with lpm := true }
  | store (s : State) (a : Nat) (v : Byte) (ok : a < 2 ^ s.cfg.addrW) (ready : s.cmdReady = true) :
      MoveCase (.store a v) s { s with mem := writeByte s.mem a v }
  | reset (s : State) (d : HoldDraw) (ok : holdOk s.cfg d = true) : MoveCase (.rst d) s (s.warmReset d)

theorem eventWord_decodes (c : Config) (rx other : Bool) :
    decode c .evt (eventWord rx other) = .ok (decodeEvent rx other) := by
  cases rx <;> cases other <;> rfl

theorem byte_decodes (f : Byte → Instr) (b : Byte) : decodeByte f b.toNat = .ok (f b) := by
  rw [decodeByte, if_neg (by have := b.isLt; omega), BitVec.ofNat_toNat, BitVec.setWidth_eq]

@[simp] theorem consume_cmd (s : State) : consume .cmd s = { s with cmdPort := none } := rfl

@[simp] theorem consume_pay (m : TxMode) (s : State) : consume (.pay m) s = s := if_neg (by simp)

@[simp] theorem consume_wire (s : State) : consume .wire s = s := if_neg (by simp)

@[simp] theorem consume_evt (s : State) : consume .evt s = s := if_neg (by simp)

theorem decodeEvent_run (s : State) (phase : s.dphase = .dIdent) :
    exec (decodeEvent s.rxifg s.otherifg) s = .next (if s.rxifg then s.rxRead else s.ignoreEvent) := by
  cases hr : s.rxifg <;> cases ho : s.otherifg <;>
    simp [decodeEvent, exec, execIrqRx, execIrqForeign, execIrqNone, phase, hr, ho]

theorem decodeWire_run (s : State) (phase : s.dphase = .dCall)
    (slot : s.cbslot = hDecoder) :
    exec (decodeWire s.cfg s.rxbyte) s = .next (s.finishDecoder (decStep s.cfg s.dec s.rxbyte)) := by
  have hc : s.decoderCalled s.rxbyte = true := (decoderCalled_iff _ _).2 ⟨phase, slot, rfl⟩
  unfold decodeWire
  split
  · next h => simp [exec, execWSync, wireSymbol, ← h, hc]
  · split
    · next h => simp [exec, execWEscape, wireSymbol, ← h, hc]
    · next h1 h2 => simp [exec, execWLit, isReserved, h1, h2, wireSymbol, hc]

/-- A command word decodes to one of the four rows of R73. -/
theorem decode_cmd_cases {c : Config} {w : Nat} {i : Instr} (h : decode c .cmd w = .ok i) :
    (∃ a l, i = .frameWrite a l) ∨ (∃ a l, i = .rawWrite a l) ∨ (∃ hid, i = .register hid) ∨
      ∃ p, i = .cmdReserved p := by
  simp only [decode, decodeCommand] at h
  repeat' split at h
  all_goals cases h
  · exact .inl ⟨_, _, rfl⟩
  · exact .inr (.inl ⟨_, _, rfl⟩)
  · exact .inr (.inr (.inl ⟨_, rfl⟩))
  · exact .inr (.inr (.inr ⟨_, rfl⟩))

/-- The acceptance of the command at the port. -/
theorem command_cases {s t : State} {w : Nat} {i : Instr} (ready : s.cmdReady = true)
    (waiting : s.cmdPort = some w) (word : decode s.cfg .cmd w = .ok i)
    (run : exec i { s with cmdPort := none } = .next t) : MoveCase .mainline s t := by
  have ready' : State.cmdReady { s with cmdPort := none } = true := ready
  rcases decode_cmd_cases word with ⟨a, l, rfl⟩ | ⟨a, l, rfl⟩ | ⟨h, rfl⟩ | ⟨p, rfl⟩
  · simp only [exec, execFrameWrite, ready', if_true] at run
    split at run
    · cases run; exact .acceptFrame s w a l ready waiting word ‹_›
    · cases run
  · simp only [exec, execRawWrite, ready', if_true] at run
    split at run
    · split at run
      · subst l; cases run; exact .acceptEmptyRaw s w a ready waiting word ‹_›
      · cases run; exact .acceptRaw s w a l ready waiting word ‹_› ‹_›
    · cases run
  · simp only [exec, execRegister, ready', if_true] at run
    split at run
    · cases run; exact .acceptRegister s w h ready waiting word ‹_›
    · cases run
  · cases run

/-- Inversion of `perform`. -/
theorem perform_cases {m : Move} {s t : State} (hcfg : s.cfg.sync ≠ s.cfg.escape)
    (h : perform m s = .next t) : MoveCase m s t := by
  unfold perform at h
  cases m with
  | mainline =>
    simp only [fetch] at h
    split at h
    · next src w hf =>
      split at hf
      · next hr =>
        obtain ⟨w', hw', heq⟩ := Option.map_eq_some_iff.1 hf
        cases heq
        split at h
        · next i hi =>
          exact command_cases hr hw' hi h
        · cases h
      · split at hf
        · next hb =>
          simp only [Bool.and_eq_true, beq_iff_eq] at hb
          obtain ⟨b, hpb, heq⟩ := Option.map_eq_some_iff.1 hf
          cases heq
          rw [decode, byte_decodes] at h
          simp only [consume_pay] at h
          cases hm : s.txmode with
          | framed =>
            simp only [hm, decodePayload] at h
            by_cases h1 : b = s.cfg.sync
            · simp only [h1, if_true, exec, execPSync] at h
              split at h
              · cases h; exact .escape s _ ‹_› (by simp [isReserved])
              · cases h; exact .wait _ _
            · by_cases h2 : b = s.cfg.escape
              · simp only [h2, Ne.symm hcfg, if_true, if_false, exec, execPEscape] at h
                split at h
                · cases h; exact .escape s _ ‹_› (by simp [isReserved])
                · cases h; exact .wait _ _
              · simp only [h1, h2, if_false, exec, execPPlain] at h
                split at h
                · next hg =>
                  simp only [Bool.and_eq_true, Bool.not_eq_true'] at hg
                  cases h; exact .plain s b hg.1 hg.2
                · cases h; exact .wait _ _
          | raw =>
            simp only [hm, decodePayload, exec, execPRaw] at h
            split at h
            · cases h; exact .raw s b ‹_›
            · cases h; exact .wait _ _
        · cases hf
    · simp only [act] at h
      cases h
      unfold mainlineStep
      split
      · exact .wait _ _
      · next hx =>
        unfold openFrame; split
        · next hg => simp only [Bool.and_eq_true] at hg; exact .opening s hx hg.2
        · exact .wait _ _
      · exact .wait _ _
      · next hx =>
        unfold emitOperand; split
        · next hg => simp only [Bool.and_eq_true] at hg; exact .operand s hx hg.2
        · exact .wait _ _
      · next hx =>
        unfold closeFrame; split
        · next hg => simp only [Bool.and_eq_true] at hg; exact .closing s hx hg.2
        · exact .wait _ _
  | interrupt =>
    simp only [fetch] at h
    by_cases h1 : s.dphase = .dIdent
    · simp only [h1, if_true, eventWord_decodes, consume] at h
      simp only [reduceCtorEq, if_false, decodeEvent_run s h1] at h
      cases hr : s.rxifg
      · simp [hr] at h; subst h; exact .ignore s h1 hr
      · simp [hr] at h; subst h; exact .read s h1 hr
    · simp only [h1, if_false] at h
      by_cases h2 : s.dphase = .dCall ∧ s.cbslot = hDecoder
      · rw [if_pos h2] at h
        simp only [decode, byte_decodes, consume_wire, decodeWire_run s h2.1 h2.2] at h
        cases h
        exact .decoder s h2.1 h2.2
      · rw [if_neg h2] at h
        simp only [act, interruptStep] at h
        split at h
        · next hp => split at h <;> cases h
                     · exact .enter s hp ‹_›
                     · exact .wait _ _
        · cases h; exact .wait _ _
        · next hp =>
          split at h
          · cases h; exact .default s hp ‹_›
          · split at h
            · cases h; exact .wait _ _
            · cases h
        · cases h; exact .leave s ‹_›
  | present w =>
    simp only [fetch, act] at h
    split at h
    · cases h
      unfold presentCommand; split
      · next hn => exact .present s w ‹_› (by simpa using hn)
      · exact .wait _ _
    · cases h
  | cbDone a =>
    simp only [fetch, act] at h
    split at h
    · cases h
      unfold answerCall State.cbCall
      by_cases hg : s.dphase = .dCall ∧ isExternal s.cfg s.cbslot = true
      · simp only [hg, and_self, if_true, Option.isSome_some]; exact .answer s a hg.1 hg.2 ‹_›
      · simp only [hg, if_false, Option.isSome_none, Bool.false_eq_true]; exact .wait _ _
    · cases h
  | txAck => simp only [fetch, act] at h; cases h; exact .ack s
  | rx v draw held =>
    simp only [fetch, act] at h
    cases h
    unfold receive
    split
    · exact .overrun s v draw held ‹_›
    · next hq =>
      split
      · next hk => exact .arrive s v draw held (by simpa using hq) (by simpa using hk)
      · exact .wait _ _
  | foreign b => simp only [fetch, act] at h; cases h; exact .foreign s b
  | sleep =>
    simp only [fetch, act] at h
    cases h
    unfold enterSleep; split
    · next hg => exact .sleep s (by simpa [State.cmdReady, and_comm] using hg)
    · exact .wait _ _
  | store a v =>
    simp only [fetch, act] at h
    split at h
    · cases h
      unfold storeByte; split
      · next hg => exact .store s a v ‹_› (by simpa [State.cmdReady, and_comm] using hg)
      · exact .wait _ _
    · cases h
  | rst d =>
    simp only [fetch, act] at h
    split at h
    · cases h; exact .reset s d ‹_›
    · cases h

/-- The interrupt agent's move, in one equation. -/
theorem perform_interrupt (s : State) :
    perform .interrupt s =
      if s.dphase = .dIdent then .next (if s.rxifg then s.rxRead else s.ignoreEvent)
      else if s.dphase = .dCall ∧ s.cbslot = hDecoder then .next (s.finishDecoder (decStep s.cfg s.dec s.rxbyte))
      else interruptStep s := by
  unfold perform fetch
  by_cases h1 : s.dphase = .dIdent
  · simp only [h1, if_true, eventWord_decodes, consume_evt, decodeEvent_run s h1]
  · by_cases h2 : s.dphase = .dCall ∧ s.cbslot = hDecoder
    · simp only [h1, if_false]
      rw [if_pos h2]
      simp only [decode, byte_decodes, consume_wire, decodeWire_run s h2.1 h2.2, h2, and_self, if_true]
    · simp only [h1, if_false]
      rw [if_neg h2]
      simp [act, h2]

/-- A main-line move that reads no word. -/
theorem perform_mainline_wordless (s : State) (h1 : s.txstate ≠ .tIdle) (h2 : s.txstate ≠ .tBody) :
    perform .mainline s = .next (mainlineStep s) := by
  have : s.cmdReady = false := by
    rw [← Bool.not_eq_true, cmdReady_iff]
    simp [h1]
  simp [perform, fetch, this, h2, act]

/-- The step, once the configuration is known to be one of the hardware's. -/
theorem step_eq_perform {s : State} (h : configOk s.cfg = true) : step s = perform (nextMove s) (beginStep s) := by
  simp [step, h]

/-- Inversion of `step`: the configuration is one of the hardware's, and the next move was made at the state where
it has been taken from the queue. -/
theorem step_cases {s t : State} (h : step s = .next t) :
    configOk s.cfg = true ∧ MoveCase (nextMove s) (beginStep s) t := by
  unfold step at h
  split at h
  · next hc => exact ⟨hc, perform_cases (by simpa using ((configOk_iff _).1 hc).1.1) h⟩
  · cases h

end Sys2Proof.Machine
end

