-- ==== Sys2Proof/Laws/Runs.lean ====
section
/-! SUPPORT. Steps from a queue of moves, and runs. -/

namespace Sys2Proof.Machine

/-- The first move of the queue is made. -/
theorem step_of_inputs {s : State} {m : Move} {rest : List Move} (hc : configOk s.cfg = true)
    (hq : s.inputs = m :: rest) : step s = perform m { s with inputs := rest, strobes := [] } := by
  rw [step_eq_perform hc]
  simp [nextMove, beginStep, hq]

/-- A run in two parts. -/
theorem run_add (M : Host.Core) (a b : Nat) (s t : M.State) (h : M.run a s = .next t) :
    M.run (a + b) s = M.run b t := by
  induction a generalizing s with
  | zero => simp [Host.Core.run] at h; subst h; simp
  | succ n ih =>
    rw [Nat.add_right_comm]
    simp only [Host.Core.run] at *
    cases hs : M.step s <;> simp [hs] at h ⊢
    exact ih _ h

/-- One more step at the front of a run of the machine. -/
theorem run_succ {s t : State} (k : Nat) (h : step s = .next t) :
    Sys2Proof.core.run (k + 1) s = Sys2Proof.core.run k t := by
  have h' : Sys2Proof.core.step s = .next t := h
  simp only [Host.Core.run, h']

theorem bufferBytes_pos (m : Memory) (a n : Nat) (h : 0 < n) :
    bufferBytes m a n = readByte m a :: bufferBytes m (a + 1) (n - 1) := by
  cases n with
  | zero => omega
  | succ n => rfl

/-- The word a main-line move reads in T_BODY. -/
theorem fetch_payload {s : State} {b : Byte} (h : s.txstate = .tBody) (run : s.mlRun = true)
    (hb : s.payloadByte = some b) : fetch .mainline s = some (.pay s.txmode, b.toNat) := by
  have : s.cmdReady = false := by
    rw [← Bool.not_eq_true, cmdReady_iff]
    simp [h]
  simp [fetch, this, h, run, hb]

/-- A body step is the meaning of the payload byte's class. -/
theorem perform_payload {s : State} {b : Byte} (h : s.txstate = .tBody) (run : s.mlRun = true)
    (hb : s.payloadByte = some b) : perform .mainline s = exec (decodePayload s.cfg s.txmode b) s := by
  simp only [perform, fetch_payload h run hb, decode, byte_decodes, consume_pay]

end Sys2Proof.Machine
end

