-- ==== Sys2Proof/Laws/Fairness.lean ====
section
/-! SUPPORT. What the fairness premises of R178 give. -/

namespace Sys2Proof.Machine

/-- The move that a schedule offers is made. -/
theorem step_offered {s t : State} {m : Move} (h : step { s with inputs := [m] } = .next t) :
    perform m { s with inputs := [], strobes := [] } = .next t := by
  rw [← h, step_of_inputs (step_cases h).1 rfl]

/-- Every step of the dispatcher leaves the phase it is taken in: none is a move without effect. -/
theorem perform_dispatcherStep {bank : HandlerBank} {s t : State} {m : Move} (enabled : dispatcherStep bank s m)
    (h : perform m s = .next t) : t.dphase ≠ s.dphase := by
  unfold dispatcherStep at enabled
  cases hd : s.dphase <;> simp only [hd] at enabled
  · obtain ⟨pending, rfl⟩ := enabled
    simp [perform_interrupt, hd, interruptStep, pending] at h
    simp [← h]
  · subst enabled
    simp only [perform_interrupt, hd, if_true] at h
    cases h
    split <;> simp
  · rcases enabled with ⟨slot | slot, rfl⟩ | ⟨external, a, -, ok, rfl⟩
    · simp [perform_interrupt, hd, slot, hDefault, hDecoder, interruptStep, callDefault] at h
      simp [← h]
    · simp [perform_interrupt, hd, slot] at h
      simp [← h]
    · simp [perform, fetch, act, ok, answerCall, State.cbCall, hd, external] at h
      simp [← h]
  · subst enabled
    simp [perform_interrupt, hd, interruptStep] at h
    rw [← h]
    unfold State.leaveInterrupt
    split <;> simp

/-- FAIR_IRQ: a dispatcher that always has a step leaves the phase it is in. -/
theorem fairIrq_leaves_phase {bank : HandlerBank} {schedule : Nat → Move} {run : Nat → State}
    (hr : isRun schedule run) (fair : FairIrq bank schedule run) (n : Nat)
    (enabled : ∀ k, n ≤ k → ∃ m, dispatcherStep bank (run k) m) :
    ∃ k, n ≤ k ∧ (run (k + 1)).dphase ≠ (run k).dphase := by
  obtain ⟨k, hk, taken⟩ := fair n enabled
  exact ⟨k, hk,
    perform_dispatcherStep (s := { run k with inputs := [], strobes := [] }) taken (step_offered (hr k))⟩

/-- FAIR_TXACK: the transmit hardware becomes ready again and again. -/
theorem fairTxAck_ready {schedule : Nat → Move} {run : Nat → State} (hr : isRun schedule run)
    (fair : FairTxAck schedule run) (n : Nat) : ∃ k, n ≤ k ∧ (run k).txrdy = true := by
  by_contra never
  push Not at never
  have low : ∀ k, n ≤ k → (run k).txrdy = false := fun k hk => by simpa using never k hk
  obtain ⟨k, hk, -, ack⟩ := fair n fun k hk => ⟨.txAck, low k hk, rfl⟩
  have hp := step_offered (hr k)
  rw [ack] at hp
  have ready := low (k + 1) (by omega)
  injection hp with hp
  simp [← hp, txAck] at ready

end Sys2Proof.Machine
end

