-- ==== Sys2Proof/Laws/Format.lean ====
section
/-! SUPPORT. The per-byte laws of the wire format (R3, R62, R65), the fields of a command word (R72), and one
lemma on all that the decoder can do (R136, R144). -/

namespace Sys2Proof.Machine

/-! The constants (R3, R4). -/

theorem sync_ne_escape {c : Config} (h : configOk c = true) : c.sync ≠ c.escape := ((configOk_iff c).1 h).1.1

theorem sync_ne_escape_xor {c : Config} (h : configOk c = true) : c.sync ≠ c.escape ^^^ xmask :=
  ((configOk_iff c).1 h).1.2

theorem xor_xmask_twice (b : Byte) : b ^^^ xmask ^^^ xmask = b := by simp

theorem xor_xmask_ne (b : Byte) : b ^^^ xmask ≠ b := by
  intro h
  have h' : (b ^^^ xmask) ^^^ b = b ^^^ b := by rw [h]
  rw [BitVec.xor_comm b xmask, BitVec.xor_assoc] at h'
  simp [xmask] at h'

theorem escape_ne_sync_xor {c : Config} (h : configOk c = true) : c.escape ≠ c.sync ^^^ xmask := fun he =>
  sync_ne_escape_xor h (by rw [he, xor_xmask_twice])

/-- The operand of an escape pair is never SYNC. -/
theorem operand_ne_sync {c : Config} (h : configOk c = true) {b : Byte} (hr : isReserved c b = true) :
    b ^^^ xmask ≠ c.sync := by
  rcases (isReserved_iff c b).1 hr with rfl | rfl
  · exact xor_xmask_ne _
  · exact Ne.symm (sync_ne_escape_xor h)

/-! The wire format. -/

theorem escBytes_append (c : Config) (p q : List Byte) : escBytes c (p ++ q) = escBytes c p ++ escBytes c q := by
  induction p with
  | nil => rfl
  | cons b p ih => simp [escBytes, ih]

/-- Decoding the escaped form of one byte gives the byte, whatever follows. -/
theorem unescBytes_escByte {c : Config} (h : configOk c = true) (b : Byte) (rest : List Byte) :
    unescBytes c (escByte c b ++ rest) = (unescBytes c rest).map (fun t => b :: t) := by
  unfold escByte
  split
  · next hr => simp [unescBytes, Ne.symm (sync_ne_escape h), operand_ne_sync h hr]
  · next hr =>
    rw [isReserved_iff] at hr
    push Not at hr
    cases rest <;> simp [unescBytes, hr]

theorem length_escByte (c : Config) (b : Byte) :
    (escByte c b).length = if isReserved c b = true then 2 else 1 := by
  unfold escByte
  split <;> rfl

/-! The fields of a command word (R72). -/

theorem commandWord_op (c : Config) (op payload : Nat) (ho : op < 4) (hp : payload < 2 ^ c.payloadW) :
    bitField (commandWord c op payload) c.payloadW 2 = op := by
  simp only [commandWord, bitField]
  rw [Nat.mul_comm, Nat.mul_add_div (by positivity), Nat.div_eq_of_lt hp]
  simp
  omega

theorem commandWord_low (c : Config) (op payload n : Nat) (hn : n ≤ c.payloadW) :
    bitField (commandWord c op payload) 0 n = payload % 2 ^ n := by
  obtain ⟨k, hk⟩ := Nat.exists_eq_add_of_le hn
  simp only [commandWord, bitField, hk, pow_add, pow_zero, Nat.div_one]
  rw [show op * (2 ^ n * 2 ^ k) + payload = 2 ^ n * (op * 2 ^ k) + payload by ring, Nat.mul_add_mod]

theorem commandWord_reserved (c : Config) (op payload n : Nat) (hn : n ≤ c.payloadW) (hp : payload < 2 ^ n) :
    bitField (commandWord c op payload) n (c.payloadW - n) = 0 := by
  obtain ⟨k, hk⟩ := Nat.exists_eq_add_of_le hn
  simp only [commandWord, bitField, hk, pow_add]
  rw [show op * (2 ^ n * 2 ^ k) + payload = 2 ^ n * (op * 2 ^ k) + payload by ring,
    Nat.mul_add_div (by positivity), Nat.div_eq_of_lt hp]
  simp

/-! The decoder. -/

/-- Everything one call of the decoder can do, by state and class of the byte (R137 to R143). -/
theorem decStep_cases (c : Config) (d : Decoder) (b : Byte) :
    (d.state = .hunt ∧ b = c.sync ∧ decStep c d b = ⟨⟨.data, false, []⟩, 0, none⟩) ∨
    (d.state = .hunt ∧ b ≠ c.sync ∧ decStep c d b = ⟨d, 0, none⟩) ∨
    (d.state = .data ∧ b = c.sync ∧ d.err = true ∧
      decStep c d b = ⟨{ d with state := .hunt }, 0, some (.frameError .overflow)⟩) ∨
    (d.state = .data ∧ b = c.sync ∧ d.err = false ∧
      decStep c d b = ⟨{ d with state := .hunt }, 1, some (.frame d.buf)⟩) ∨
    (d.state = .data ∧ b ≠ c.sync ∧ b = c.escape ∧ decStep c d b = ⟨{ d with state := .esc }, 0, none⟩) ∨
    (d.state = .data ∧ b ≠ c.sync ∧ b ≠ c.escape ∧ decStep c d b = ⟨decAppend c d b, 0, none⟩) ∨
    (d.state = .esc ∧ b = c.sync ∧
      decStep c d b = ⟨{ d with state := .hunt }, 0, some (.frameError .escSync)⟩) ∨
    (d.state = .esc ∧ b ≠ c.sync ∧
      decStep c d b = ⟨{ decAppend c d (b ^^^ xmask) with state := .data }, 0, none⟩) := by
  unfold decStep stepHuntSync stepHuntOther stepDataSync stepDataEscape stepDataLit stepEscSync stepEscOther
  cases d.state with
  | hunt => by_cases h1 : b = c.sync <;> simp [h1]
  | data =>
    by_cases h1 : b = c.sync
    · cases d.err <;> simp [h1]
    · by_cases h2 : b = c.escape
      · subst h2; simp [h1]
      · simp [h1, h2]
  | esc => by_cases h1 : b = c.sync <;> simp [h1]

theorem decFold_append (c : Config) (d : Decoder) (xs ys : List Byte) :
    decFold c d (xs ++ ys) =
      ((decFold c (decFold c d xs).1 ys).1,
        (decFold c d xs).2.1 ++ (decFold c (decFold c d xs).1 ys).2.1,
        (decFold c d xs).2.2 ++ (decFold c (decFold c d xs).1 ys).2.2) := by
  induction xs generalizing d with
  | nil => rfl
  | cons x xs ih => simp [decFold, ih]

end Sys2Proof.Machine
end

