-- ==== Sys2Proof/Laws/PerInstr.lean ====
section
/-! SUPPORT. Statements about every instruction, one lemma per constructor. -/

namespace Sys2Proof.Laws

open Sys2Proof

theorem commandWord_lt (c : Config) (op payload : Nat) (ho : op < 4) (hp : payload < 2 ^ c.payloadW) :
    commandWord c op payload < 2 ^ c.cmdW := by
  have : 2 ^ c.cmdW = 4 * 2 ^ c.payloadW := by rw [Config.cmdW, Nat.pow_add]
  rw [this, commandWord]
  calc op * 2 ^ c.payloadW + payload < op * 2 ^ c.payloadW + 2 ^ c.payloadW := by omega
    _ = (op + 1) * 2 ^ c.payloadW := by ring
    _ ≤ 4 * 2 ^ c.payloadW := Nat.mul_le_mul_right _ ho

theorem writePayload_lt (c : Config) (addr len : Nat) (ha : addr < 2 ^ c.addrW) (hl : len < 2 ^ c.lenW) :
    addr * 2 ^ c.lenW + len < 2 ^ c.payloadW := by
  calc addr * 2 ^ c.lenW + len < addr * 2 ^ c.lenW + 2 ^ c.lenW := by omega
    _ = (addr + 1) * 2 ^ c.lenW := by ring
    _ ≤ 2 ^ c.addrW * 2 ^ c.lenW := Nat.mul_le_mul_right _ ha
    _ = 2 ^ (c.addrW + c.lenW) := (Nat.pow_add ..).symm
    _ ≤ 2 ^ c.payloadW := Nat.pow_le_pow_right (by norm_num) (le_max_left _ _)

/-- The word of a well-formed instruction has no more bits than the port it is read from (R61, R72, R77). -/
def EncodeFits.Statement (i : Instr) : Prop :=
  ∀ c : Config, i.wellFormed c = true → (encode c i).2 < 2 ^ (encode c i).1.width c

theorem EncodeFits.frameWrite (addr len : Nat) : EncodeFits.Statement (.frameWrite addr len) := fun c h => by
  simp only [Instr.wellFormed, writeWellFormed, Bool.and_eq_true, decide_eq_true_eq] at h
  exact commandWord_lt c 0 _ (by decide) (writePayload_lt c addr len h.1.1 h.1.2)

theorem EncodeFits.rawWrite (addr len : Nat) : EncodeFits.Statement (.rawWrite addr len) := fun c h => by
  simp only [Instr.wellFormed, writeWellFormed, Bool.and_eq_true, decide_eq_true_eq] at h
  exact commandWord_lt c 1 _ (by decide) (writePayload_lt c addr len h.1.1 h.1.2)

theorem EncodeFits.register (hid : Nat) : EncodeFits.Statement (.register hid) := fun c h => by
  simp only [Instr.wellFormed, decide_eq_true_eq] at h
  exact commandWord_lt c 2 _ (by decide)
    (lt_of_lt_of_le h (Nat.pow_le_pow_right (by norm_num) (le_max_right _ _)))

theorem EncodeFits.cmdReserved (payload : Nat) : EncodeFits.Statement (.cmdReserved payload) := fun _ h => by
  cases h

theorem EncodeFits.wSync : EncodeFits.Statement .wSync := fun c _ => c.sync.isLt

theorem EncodeFits.wEscape : EncodeFits.Statement .wEscape := fun c _ => c.escape.isLt

theorem EncodeFits.wLit (b : Byte) : EncodeFits.Statement (.wLit b) := fun _ _ => b.isLt

theorem EncodeFits.decHuntSync : EncodeFits.Statement .decHuntSync := fun c _ => c.sync.isLt

theorem EncodeFits.decHuntOther (b : Byte) : EncodeFits.Statement (.decHuntOther b) := fun _ _ => b.isLt

theorem EncodeFits.decDataSync : EncodeFits.Statement .decDataSync := fun c _ => c.sync.isLt

theorem EncodeFits.decDataEscape : EncodeFits.Statement .decDataEscape := fun c _ => c.escape.isLt

theorem EncodeFits.decDataLit (b : Byte) : EncodeFits.Statement (.decDataLit b) := fun _ _ => b.isLt

theorem EncodeFits.decEscSync : EncodeFits.Statement .decEscSync := fun c _ => c.sync.isLt

theorem EncodeFits.decEscOther (b : Byte) : EncodeFits.Statement (.decEscOther b) := fun _ _ => b.isLt

theorem EncodeFits.pSync : EncodeFits.Statement .pSync := fun c _ => c.sync.isLt

theorem EncodeFits.pEscape : EncodeFits.Statement .pEscape := fun c _ => c.escape.isLt

theorem EncodeFits.pPlain (b : Byte) : EncodeFits.Statement (.pPlain b) := fun _ _ => b.isLt

theorem EncodeFits.pRaw (b : Byte) : EncodeFits.Statement (.pRaw b) := fun _ _ => b.isLt

theorem EncodeFits.irqRx (other : Bool) : EncodeFits.Statement (.irqRx other) := fun _ _ => by
  cases other <;> norm_num [encode, eventWord, Source.width]

theorem EncodeFits.irqForeign : EncodeFits.Statement .irqForeign := fun _ _ => by
  norm_num [encode, eventWord, Source.width]

theorem EncodeFits.irqNone : EncodeFits.Statement .irqNone := fun _ _ => by
  norm_num [encode, eventWord, Source.width]

end Sys2Proof.Laws
end

