-- ==== Sys2Proof/Tests/Slice0.lean ====
section
/-! SUPPORT. Tests. The expected values are those of the tables and vectors of the spec (95_test_vectors.md unless a
comment names another place), and, at the end, for each statement of Obligations.lean a state and operands that meet
its hypotheses together, clause by clause. -/

namespace Sys2Proof.Tests

open Sys2Proof Sys2Proof.Machine

/-! ## Helpers -/

/-- A field of the next state, if there is a next state. -/
def see {α : Type} (o : Host.Outcome State Fault Refusal) (f : State → α) : Option α :=
  match o with
  | .next t => some (f t)
  | .fault _ => none
  | .refused _ => none

/-- Why a step was refused. -/
def refusal (o : Host.Outcome State Fault Refusal) : Option Refusal :=
  match o with
  | .refused r => some r
  | .next _ => none
  | .fault _ => none

/-- With which fault a step stopped. -/
def faultOf (o : Host.Outcome State Fault Refusal) : Option Fault :=
  match o with
  | .fault r => some r
  | .next _ => none
  | .refused _ => none

/-- The constants of the second configuration of section 2. -/
def slip : Config := { Config.standard with sync := 0xC0#8, escape := 0xDB#8 }

/-- A configuration whose identifiers are wider than the operands of a write (section 5). -/
def wideHid : Config := { Config.standard with addrW := 8, lenW := 8, hidW := 32 }

/-- A decoder of capacity 2 (D13 to D15). -/
def cap2 : Config := { Config.standard with decCap := some 2 }

/-- A build whose external bank defines identifiers 2 and 3 only (section 7). -/
def bank23 : Config := { Config.standard with handlers := [⟨2, 2⟩] }

/-- A build in which address 0x0201 is not readable (T6). -/
def hole201 : Config := { Config.standard with holes := [⟨0x0201, 1⟩] }

/-- The payload of the document's scenario 2, at 0x0200. -/
def buffer : Memory := [(0x0200, 0x41#8), (0x0201, 0x7E#8), (0x0202, 0x42#8)]

/-- Idle, the hardware ready, the buffer in memory (the start of T1 to T7 and P1). -/
def ready : State := { State.reset with txrdy := true, mem := buffer }

/-- Inside a write of the buffer, at the payload byte `i`. -/
def inBody (mode : TxMode) (i : Nat) : State :=
  { ready with txstate := .tBody, txmode := mode, txbase := 0x0200, txlen := 3, txidx := i }

/-- The interrupt context is calling the handler in the slot `slot` with the byte `b`. -/
def calling (slot : Nat) (b : Byte) (d : Decoder) : State :=
  { State.reset with dphase := .dCall, cbslot := slot, rxbyte := b, dec := d }

/-! ## WellFormed: an ill-formed term for each check -/

theorem test_wf_address_too_wide : (Instr.frameWrite 0x10000 0).wellFormed Config.standard = false := by decide

theorem test_wf_length_too_wide : (Instr.frameWrite 0 0x10000).wellFormed Config.standard = false := by decide

/-- T7: 0xFFFF + 2 passes the top of memory. -/
theorem test_wf_range : (Instr.frameWrite 0xFFFF 2).wellFormed Config.standard = false := by decide

/-- T7. -/
theorem test_wf_raw_range : (Instr.rawWrite 0x8000 0x8001).wellFormed Config.standard = false := by decide

theorem test_wf_identifier_too_wide : (Instr.register 0x10000).wellFormed Config.standard = false := by decide

theorem test_wf_reserved_operation : (Instr.cmdReserved 0).wellFormed Config.standard = false := by decide

theorem test_wf_literal_sync : (Instr.wLit 0x7E#8).wellFormed Config.standard = false := by decide

theorem test_wf_literal_escape : (Instr.wLit 0x7D#8).wellFormed Config.standard = false := by decide

theorem test_wf_hunt_other_sync : (Instr.decHuntOther 0x7E#8).wellFormed Config.standard = false := by decide

theorem test_wf_data_literal : (Instr.decDataLit 0x7D#8).wellFormed Config.standard = false := by decide

theorem test_wf_operand_sync : (Instr.decEscOther 0x7E#8).wellFormed Config.standard = false := by decide

theorem test_wf_plain_escape : (Instr.pPlain 0x7D#8).wellFormed Config.standard = false := by decide

/-! ## Decoding: a word of every row, written out from the tables of sections 1, 3 and 4 of 30_encoding.md -/

/-- op 00, addr 0x0200, len 3. -/
theorem test_decode_frame_write :
    decode Config.standard .cmd (0b00 <<< 32 ||| 0x0200 <<< 16 ||| 3) = .ok (.frameWrite 0x0200 3) := by rfl

/-- op 01, addr 0x0300, len 2. -/
theorem test_decode_raw_write :
    decode Config.standard .cmd (0b01 <<< 32 ||| 0x0300 <<< 16 ||| 2) = .ok (.rawWrite 0x0300 2) := by rfl

/-- op 10, hid 0xFFFF. -/
theorem test_decode_register :
    decode Config.standard .cmd (0b10 <<< 32 ||| 0xFFFF) = .ok (.register 0xFFFF) := by rfl

/-- op 11. -/
theorem test_decode_cmd_reserved :
    decode Config.standard .cmd (0b11 <<< 32) = .ok (.cmdReserved 0) := by rfl

/-- Bit 16 of a REGISTER word is reserved. -/
theorem test_decode_reserved_bit : decode Config.standard .cmd 0x200010002 = .error .reservedBit := by rfl

/-- With 32-bit identifiers the same word is REGISTER 0x00010002. -/
theorem test_decode_wide_identifier : decode wideHid .cmd 0x200010002 = .ok (.register 0x10002) := by rfl

/-- ADDR_W = LEN_W = 8: FRAME_WRITE 0x20, 3. -/
theorem test_decode_narrow_write : decode wideHid .cmd 0x000002003 = .ok (.frameWrite 0x20 3) := by rfl

theorem test_decode_w_sync : decode Config.standard .wire 0b01111110 = .ok .wSync := by rfl

theorem test_decode_w_escape : decode Config.standard .wire 0b01111101 = .ok .wEscape := by rfl

theorem test_decode_w_lit : decode Config.standard .wire 0b01000001 = .ok (.wLit 0x41#8) := by rfl

theorem test_decode_dec_hunt_sync : decode Config.standard (.decoder .hunt) 0b01111110 = .ok .decHuntSync := by rfl

theorem test_decode_dec_hunt_other :
    decode Config.standard (.decoder .hunt) 0b01111101 = .ok (.decHuntOther 0x7D#8) := by rfl

theorem test_decode_dec_data_sync : decode Config.standard (.decoder .data) 0b01111110 = .ok .decDataSync := by rfl

theorem test_decode_dec_data_escape :
    decode Config.standard (.decoder .data) 0b01111101 = .ok .decDataEscape := by rfl

theorem test_decode_dec_data_lit :
    decode Config.standard (.decoder .data) 0b01000001 = .ok (.decDataLit 0x41#8) := by rfl

theorem test_decode_dec_esc_sync : decode Config.standard (.decoder .esc) 0b01111110 = .ok .decEscSync := by rfl

theorem test_decode_dec_esc_other :
    decode Config.standard (.decoder .esc) 0b01111101 = .ok (.decEscOther 0x7D#8) := by rfl

theorem test_decode_p_sync : decode Config.standard (.pay .framed) 0b01111110 = .ok .pSync := by rfl

theorem test_decode_p_escape : decode Config.standard (.pay .framed) 0b01111101 = .ok .pEscape := by rfl

theorem test_decode_p_plain : decode Config.standard (.pay .framed) 0b01011110 = .ok (.pPlain 0x5E#8) := by rfl

theorem test_decode_p_raw : decode Config.standard (.pay .raw) 0b01111110 = .ok (.pRaw 0x7E#8) := by rfl

theorem test_decode_irq_rx :
    decode Config.standard .evt 0b11 = .ok (.irqRx true) ∧ decode Config.standard .evt 0b10 = .ok (.irqRx false) :=
  ⟨rfl, rfl⟩

theorem test_decode_irq_foreign : decode Config.standard .evt 0b01 = .ok .irqForeign := by rfl

theorem test_decode_irq_none : decode Config.standard .evt 0b00 = .ok .irqNone := by rfl

/-! ## The wire format (section 2) -/

/-- E6. -/
theorem test_encode_mixture :
    frameEncode Config.standard [0x7E#8, 0x7D#8, 0x5E#8, 0x5D#8, 0x20#8, 0x00#8, 0xFF#8] =
      [0x7E#8, 0x7D#8, 0x5E#8, 0x7D#8, 0x5D#8, 0x5E#8, 0x5D#8, 0x20#8, 0x00#8, 0xFF#8, 0x7E#8] := by decide

/-- The other constants of section 2. -/
theorem test_encode_slip :
    frameEncode slip [0x41#8, 0xC0#8, 0xDB#8] =
      [0xC0#8, 0x41#8, 0xDB#8, 0xE0#8, 0xDB#8, 0xFB#8, 0xC0#8] := by decide

/-- R65: a prefix without an operand is undefined. -/
theorem test_decode_dangling_escape : frameDecode Config.standard [0x7E#8, 0x7D#8, 0x7E#8] = none := by decide

/-- The CFG_OK table of section 2. -/
theorem test_cfg_ok :
    cfgOk Config.standard = true ∧ cfgOk slip = true ∧
    cfgOk { Config.standard with sync := 0x7E#8, escape := 0x7E#8 } = false ∧
    cfgOk { Config.standard with sync := 0x7E#8, escape := 0x5E#8 } = false ∧
    cfgOk { Config.standard with sync := 0x20#8, escape := 0x00#8 } = false := by decide

/-! ## The instructions -/

/-- T1, acceptance. -/
theorem test_frame_write_zero_length :
    see (exec (.frameWrite 0x1234 0) ready) (fun t => (t.txstate, t.txlog, t.txrdy)) =
      some (.tOpen, [], true) := by decide

/-- T7: refused. -/
theorem test_frame_write_refused :
    refusal (exec (.frameWrite 0xFFFF 2) ready) = some .addressRange := by decide

/-- W2: completes in the acceptance step. -/
theorem test_raw_write_zero_length :
    see (exec (.rawWrite 0x0200 0) ready) (fun t => (t.txstate, t.txrdy, t.txlog, t.strobes)) =
      some (.tIdle, true, [], [.cmdDone]) := by decide

/-- W1, acceptance. -/
theorem test_raw_write :
    see (exec (.rawWrite 0x0200 3) ready) (fun t => (t.txstate, t.txmode, t.txidx)) =
      some (.tBody, .raw, 0) := by decide

/-- Section 5: REGISTER 0xFFFF is accepted. -/
theorem test_register :
    see (exec (.register 0xFFFF) ready) (fun t => (t.cbslot, t.strobes)) = some (0xFFFF, [.cmdDone]) := by decide

/-- Section 5: op 11 is refused. -/
theorem test_cmd_reserved : refusal (exec (.cmdReserved 0) ready) = some .reservedOperation := by decide

/-- D23. -/
theorem test_w_sync :
    see (exec .wSync (calling 1 0x7E#8 ⟨.data, false, [0x41#8]⟩)) (fun t => (t.dec, t.retval, t.declog, t.wakeReq)) =
      some (⟨.hunt, false, [0x41#8]⟩, 1, [.frame [0x41#8]], true) := by decide

/-- D10, the second ESCAPE: an operand. -/
theorem test_w_escape :
    see (exec .wEscape (calling 1 0x7D#8 ⟨.esc, false, []⟩)) (fun t => (t.dec, t.retval)) =
      some (⟨.data, false, [0x5D#8]⟩, 0) := by decide

/-- D4, first byte: discarded, and logged (P4). -/
theorem test_w_lit :
    see (exec (.wLit 0x41#8) (calling 1 0x41#8 ⟨.hunt, false, []⟩)) (fun t => (t.dec, t.cblog, t.dphase)) =
      some (⟨.hunt, false, []⟩, [⟨1, 0x41#8, 0⟩], .dExit) := by decide

/-- D14, the opening SYNC clears DERR and DBUF. -/
theorem test_dec_hunt_sync :
    see (exec .decHuntSync (calling 1 0x7E#8 ⟨.hunt, true, [0x41#8, 0x42#8]⟩)) State.dec =
      some ⟨.data, false, []⟩ := by decide

/-- D4: an ESCAPE outside a frame is discarded. -/
theorem test_dec_hunt_other :
    see (exec (.decHuntOther 0x7D#8) (calling 1 0x7D#8 ⟨.hunt, false, []⟩)) (fun t => (t.dec, t.retval)) =
      some (⟨.hunt, false, []⟩, 0) := by decide

/-- D13, the closing SYNC after an overflow: rejected, no wake. -/
theorem test_dec_data_sync_overflow :
    see (exec .decDataSync { calling 1 0x7E#8 ⟨.data, true, [0x41#8, 0x42#8]⟩ with cfg := cap2 })
        (fun t => (t.dec, t.declog, t.retval, t.wakeReq)) =
      some (⟨.hunt, true, [0x41#8, 0x42#8]⟩, [.frameError .overflow], 0, false) := by decide

/-- D7, third byte. -/
theorem test_dec_data_escape :
    see (exec .decDataEscape (calling 1 0x7D#8 ⟨.data, false, [0x41#8]⟩)) State.dec =
      some ⟨.esc, false, [0x41#8]⟩ := by decide

/-- D13, fourth byte: the third payload byte does not fit. -/
theorem test_dec_data_lit_overflow :
    see (exec (.decDataLit 0x43#8) { calling 1 0x43#8 ⟨.data, false, [0x41#8, 0x42#8]⟩ with cfg := cap2 })
        State.dec =
      some ⟨.data, true, [0x41#8, 0x42#8]⟩ := by decide

/-- D15, third byte: exactly fits. -/
theorem test_dec_data_lit_fits :
    see (exec (.decDataLit 0x42#8) { calling 1 0x42#8 ⟨.data, false, [0x41#8]⟩ with cfg := cap2 }) State.dec =
      some ⟨.data, false, [0x41#8, 0x42#8]⟩ := by decide

/-- D18, last byte: ESC_SYNC whether or not DERR is set. -/
theorem test_dec_esc_sync :
    see (exec .decEscSync (calling 1 0x7E#8 ⟨.esc, true, [0x41#8]⟩)) (fun t => (t.dec, t.declog, t.retval)) =
      some (⟨.hunt, true, [0x41#8]⟩, [.frameError .escSync], 0) := by decide

/-- D9: a pair that is not canonical. -/
theorem test_dec_esc_other :
    see (exec (.decEscOther 0x61#8) (calling 1 0x61#8 ⟨.esc, false, []⟩)) State.dec =
      some ⟨.data, false, [0x41#8]⟩ := by decide

/-- P1, line 6. -/
theorem test_p_sync :
    see (exec .pSync (inBody .framed 1)) (fun t => (t.txstate, t.txidx, t.txcur, t.txlog, t.strobes)) =
      some (.tEsc2, 1, 0x7E#8, [0x7D#8], [.memRd 0x0201, .txWrite 0x7D#8]) := by decide

/-- T3, first half. -/
theorem test_p_escape :
    see (exec .pEscape { inBody .framed 0 with mem := [(0x0200, 0x7D#8)] })
        (fun t => (t.txstate, t.txidx, t.txcur, t.txlog)) =
      some (.tEsc2, 0, 0x7D#8, [0x7D#8]) := by decide

/-- P1, line 10. -/
theorem test_p_plain :
    see (exec (.pPlain 0x42#8) (inBody .framed 2)) (fun t => (t.txstate, t.txidx, t.txrdy, t.txlog)) =
      some (.tClose, 3, false, [0x42#8]) := by decide

/-- W1: SYNC is emitted as it is. -/
theorem test_p_raw :
    see (exec (.pRaw 0x7E#8) (inBody .raw 1)) (fun t => (t.txstate, t.txidx, t.txlog)) =
      some (.tBody, 2, [0x7E#8]) := by decide

/-- W1, the last byte. -/
theorem test_p_raw_last :
    see (exec (.pRaw 0x42#8) (inBody .raw 2)) (fun t => (t.txstate, t.txidx, t.strobes)) =
      some (.tIdle, 3, [.memRd 0x0202, .txWrite 0x42#8, .cmdDone]) := by decide

/-- X4, first pass: the read; the foreign flag stays. -/
theorem test_irq_rx :
    see (exec (.irqRx true)
        { State.reset with dphase := .dIdent, rxifg := true, otherifg := true, rxbuf := 0x05#8 })
        (fun t => (t.dphase, t.rxbyte, t.rxifg, t.otherifg)) =
      some (.dCall, 0x05#8, false, true) := by decide

/-- X5. -/
theorem test_irq_foreign :
    see (exec .irqForeign { State.reset with dphase := .dIdent, otherifg := true })
        (fun t => (t.dphase, t.otherifg, t.rxbyte)) =
      some (.dExit, true, 0x00#8) := by decide

/-- The row of IRQ_NONE: at the identification step R115 applies. -/
theorem test_irq_none :
    see (exec .irqNone { State.reset with dphase := .dIdent }) State.dphase = some .dExit := by decide

/-- The row of IRQ_NONE: with no cause pending the interrupt context is not entered. -/
theorem test_irq_none_idle : see (perform .interrupt State.reset) State.dphase = some .dIdle := by decide

/-! ## The steps that read no word -/

/-- T1, opening. -/
theorem test_open :
    see (perform .mainline { ready with txstate := .tOpen }) (fun t => (t.txstate, t.txlog, t.txrdy)) =
      some (.tClose, [0x7E#8], false) := by decide

/-- T5: the operand comes from TXCUR, not from memory. -/
theorem test_operand :
    see (perform .mainline { ready with txstate := .tEsc2, txbase := 0x0400, txlen := 1, txcur := 0x7E#8 })
        (fun t => (t.txstate, t.txidx, t.txlog)) =
      some (.tClose, 1, [0x5E#8]) := by decide

/-- P1, line 12. -/
theorem test_close :
    see (perform .mainline { ready with txstate := .tClose }) (fun t => (t.txstate, t.txlog, t.strobes)) =
      some (.tIdle, [0x7E#8], [.txWrite 0x7E#8, .cmdDone]) := by decide

/-- T6: stuck at an unreadable address. -/
theorem test_unreadable :
    see (perform .mainline { inBody .framed 1 with cfg := hole201 }) (fun t => (t.txstate, t.txidx, t.txlog)) =
      some (.tBody, 1, []) := by decide

/-- X1. -/
theorem test_default_handler :
    see (perform .interrupt (calling 0 0xFF#8 ⟨.hunt, false, []⟩)) (fun t => (t.cblog, t.wakeReq, t.dphase)) =
      some ([⟨0, 0xFF#8, 0⟩], false, .dExit) := by decide

/-- X3: any nonzero value latches. -/
theorem test_external_handler :
    see (perform (.cbDone ⟨0x80, [], []⟩) (calling 3 0x00#8 ⟨.hunt, false, []⟩))
        (fun t => (t.cblog, t.wakeReq, t.dphase)) =
      some ([⟨3, 0x00#8, 0x80⟩], true, .dExit) := by decide

/-- X6. -/
theorem test_invalid_handler :
    faultOf (perform .interrupt { calling 7 0x01#8 ⟨.hunt, false, []⟩ with cfg := bank23 }) =
      some .invalidHandler := by decide

/-- The dispatch table of section 7, last row. -/
theorem test_exit :
    see (perform .interrupt { State.reset with dphase := .dExit, wakeReq := true, cblog := [⟨2, 0x05#8, 1⟩] })
        (fun t => (t.dphase, t.wakeReq, t.wakelog, t.strobes)) =
      some (.dIdle, false, [1], [.wake]) := by decide

/-- X8: an overrun leaves any byte. -/
theorem test_overrun :
    see (perform (.rx 0x22#8 0x99#8 true) { State.reset with rxbuf := 0x11#8, rxifg := true })
        (fun t => (t.rxbuf, t.rxifg)) =
      some (0x99#8, true) := by decide

/-- X12: both outcomes. -/
theorem test_arrival_in_context :
    see (perform (.rx 0x07#8 0#8 true) (calling 2 0x05#8 ⟨.hunt, false, []⟩)) State.rxifg = some true ∧
    see (perform (.rx 0x07#8 0#8 false) (calling 2 0x05#8 ⟨.hunt, false, []⟩)) State.rxifg = some false := by decide

/-- P2, line 2. -/
theorem test_sleep : see (perform .sleep State.reset) State.lpm = some true := by decide

/-- R200: an operation in progress is abandoned, the log stays. -/
theorem test_warm_reset :
    see (perform (.rst zeroHold) { inBody .framed 2 with cbslot := 2, txlog := [0x7E#8, 0x41#8] })
        (fun t => (t.txstate, t.cbslot, t.txlog)) =
      some (.tIdle, 0, [0x7E#8, 0x41#8]) := by decide

/-- The table of 00_scope.md R5: a bad configuration is refused. -/
theorem test_bad_configuration :
    refusal (step { State.reset with cfg := { Config.standard with escape := 0x5E#8 } }) =
      some .badConfiguration := by decide

/-! ## Fetching from reset -/

theorem test_fetch_register :
    see (step (State.reset.withFetchWord 40 0x200000002)) (fun t => (t.cbslot, t.cmdPort)) =
      some (2, none) := by decide

theorem test_fetch_frame_write :
    see (step (State.reset.withFetchWord 40 0x002000003)) (fun t => (t.txstate, t.txbase, t.txlen)) =
      some (.tOpen, 0x0200, 3) := by decide

theorem test_fetch_reserved_bit :
    refusal (step (State.reset.withFetchWord 40 0x200010002)) = some (.undecodable .reservedBit) := by decide

theorem test_fetch_wire :
    see (step (State.reset.withFetchWord 8 0x7E)) (fun t => t.dec.state) = some .data := by decide

theorem test_fetch_event :
    see (step (State.reset.withFetchWord 8 2)) (fun t => (t.dphase, t.rxifg)) = some (.dCall, false) := by decide

/-! ## The hypotheses of the statements can be met

One theorem for each statement that has hypotheses: a state and operands that meet all of them together, for each
clause, at boundary values of its ranges. -/

/-- A state that is not inside a write meets the invariant if its registers fit. -/
theorem inv_of_idle {s : State} (config : configOk s.cfg = true)
    (regs : s.cbslot < 2 ^ s.cfg.hidW ∧ s.retval < 2 ^ s.cfg.retW ∧ s.txbase < 2 ^ s.cfg.addrW ∧
      s.txlen < 2 ^ s.cfg.lenW ∧ s.txidx < 2 ^ s.cfg.lenW)
    (memory : Memory.wf s.mem = true) (inside : ∀ c ∈ s.mem, c.1 < 2 ^ s.cfg.addrW)
    (command : ∀ w, s.cmdPort = some w → w < 2 ^ s.cfg.cmdW) (idle : s.txstate = .tIdle)
    (latch : s.wakeReq = false) (err : s.dec.err = false)
    (buffer : ∀ cap, s.cfg.decCap = some cap → s.dec.buf.length ≤ cap) : s.Inv where
  config := config
  slot := regs.1
  ret := regs.2.1
  base := regs.2.2.1
  len := regs.2.2.2.1
  idx := regs.2.2.2.2
  memory := memory
  inside := fun a v h => inside (a, v) h
  command := command
  range := fun h => absurd idle h
  opening := fun h => by rw [idle] at h; cases h
  body := fun h => by rw [idle] at h; cases h
  pair := fun h => by rw [idle] at h; cases h
  closing := fun h => by rw [idle] at h; cases h
  awake := fun _ => idle
  latch := fun h => by rw [latch] at h; cases h
  buffer := buffer
  overflow := fun h => by rw [err] at h; cases h

/-- The queue of moves is outside the invariant. -/
theorem inv_inputs {s : State} (inv : s.Inv) (q : List Move) : State.Inv { s with inputs := q } :=
  ⟨inv.config, inv.slot, inv.ret, inv.base, inv.len, inv.idx, inv.memory, inv.inside, inv.command, inv.range,
    inv.opening, inv.body, inv.pair, inv.closing, inv.awake, inv.latch, inv.buffer, inv.overflow⟩

theorem witness_DecodeOfEncodeIsTheInstruction :
    configOk Config.standard = true ∧ configOk slip = true ∧
    [Instr.frameWrite 0xFFFF 1, .frameWrite 0xFFFF 0, .frameWrite 0 0xFFFF, .rawWrite 0xFFFF 1, .register 0xFFFF,
      .wSync, .wEscape, .wLit 0xFF#8, .decHuntSync, .decHuntOther 0x7D#8, .decDataSync, .decDataEscape,
      .decDataLit 0#8, .decEscSync, .decEscOther 0x7D#8, .pSync, .pEscape, .pPlain 0x7F#8, .pRaw 0x7E#8,
      .irqRx true, .irqForeign, .irqNone].all (Instr.wellFormed Config.standard) = true := by decide

theorem witness_EncodeOfDecodeIsTheWord :
    decode Config.standard .cmd 0x0FFFF0001 = .ok (.frameWrite 0xFFFF 1) ∧
    decode Config.standard .wire 0xFF = .ok (.wLit 0xFF#8) ∧ decode Config.standard .evt 3 = .ok (.irqRx true) :=
  ⟨rfl, rfl, rfl⟩

/-- The third clause needs a build in which the identifier is wider than the operands of a write. -/
theorem witness_ReservedCommandWordsAreNoCommands :
    (0x3FFFFFFFF < 2 ^ Config.standard.cmdW ∧ 3 * 2 ^ Config.standard.payloadW ≤ 0x300000000) ∧
    (2 * 2 ^ Config.standard.payloadW + 2 ^ Config.standard.hidW ≤ 0x200010000 ∧
      0x2FFFFFFFF < 3 * 2 ^ Config.standard.payloadW) ∧
    (0x000010000 < 2 * 2 ^ wideHid.payloadW ∧ 2 ^ (wideHid.addrW + wideHid.lenW) ≤ 0x000010000 % 2 ^ wideHid.payloadW ∧
      0x1FFFFFFFF < 2 * 2 ^ wideHid.payloadW ∧ 0x1FFFFFFFF < 2 ^ wideHid.cmdW ∧
      2 ^ (wideHid.addrW + wideHid.lenW) ≤ 0x1FFFFFFFF % 2 ^ wideHid.payloadW) := by decide

theorem witness_FrameRoundTrip : configOk Config.standard = true ∧ configOk slip = true := by decide

theorem witness_DelimiterExclusivity :
    configOk Config.standard = true ∧
    frameEncode Config.standard [0x7E#8] = [0x7E#8] ++ Config.standard.escape :: [0x5E#8, 0x7E#8] := by decide

theorem witness_EscapePairsAreABijection :
    configOk Config.standard = true ∧ isReserved Config.standard 0x7E#8 = true ∧
    isReserved Config.standard 0x7D#8 = true := by decide

theorem witness_FrameWriteIsAccepted :
    ready.txstate = .tIdle ∧ ready.dphase = .dIdle ∧ ready.lpm = false ∧ 0xFFFF < 2 ^ ready.cfg.addrW ∧
    1 < 2 ^ ready.cfg.lenW ∧ 0xFFFF + 1 ≤ 2 ^ ready.cfg.addrW := by decide

/-- Both cases of the length: 0, and the longest. -/
theorem witness_RawWriteIsAccepted :
    ready.txstate = .tIdle ∧ ready.dphase = .dIdle ∧ ready.lpm = false ∧ 0xFFFF < 2 ^ ready.cfg.addrW ∧
    0 < 2 ^ ready.cfg.lenW ∧ 0xFFFF + 0 ≤ 2 ^ ready.cfg.addrW ∧ 0xFFFF < 2 ^ ready.cfg.lenW ∧
    0 + 0xFFFF ≤ 2 ^ ready.cfg.addrW := by decide

theorem witness_RegisterReplacesTheSlot :
    ready.txstate = .tIdle ∧ ready.dphase = .dIdle ∧ ready.lpm = false ∧ 0xFFFF < 2 ^ ready.cfg.hidW := by decide

theorem witness_CommandsWaitWhileNotReady :
    (inBody .raw 0).txstate ≠ .tIdle ∧ (calling 2 0#8 ⟨.hunt, false, []⟩).dphase ≠ .dIdle ∧
    State.lpm { ready with lpm := true } = true := by decide

theorem witness_WrappingWritesAreRefused :
    ready.txstate = .tIdle ∧ ready.dphase = .dIdle ∧ ready.lpm = false ∧
    2 ^ ready.cfg.addrW < 0xFFFF + 2 ∧ 2 ^ ready.cfg.addrW < 0x8000 + 0x8001 := by decide

/-- With an empty payload and with one byte. -/
theorem witness_OpeningDelimiterIsWritten :
    ∀ n ∈ [0, 1],
      let s := { ready with txstate := TxState.tOpen, txlen := n }
      s.txstate = .tOpen ∧ s.dphase = .dIdle ∧ s.lpm = false ∧ s.txrdy = true := by decide

/-- A byte in the middle, and the last byte. -/
theorem witness_PlainByteIsEmittedUnchanged :
    ∀ p ∈ [(0, 0x41#8), (2, 0x42#8)],
      let s := inBody .framed p.1
      s.txstate = .tBody ∧ s.txmode = .framed ∧ s.dphase = .dIdle ∧ s.lpm = false ∧ s.txrdy = true ∧
      readable s.cfg (s.txbase + s.txidx) = true ∧ readByte s.mem (s.txbase + s.txidx) = p.2 ∧
      p.2 ≠ s.cfg.sync ∧ p.2 ≠ s.cfg.escape := by decide

/-- The clause of SYNC, and that of ESCAPE. -/
theorem witness_ReservedByteEmitsEscapeFirst :
    ∀ b ∈ [0x7E#8, 0x7D#8],
      let s := { inBody .framed 0 with mem := [(0x0200, b)] }
      s.txstate = .tBody ∧ s.txmode = .framed ∧ s.dphase = .dIdle ∧ s.lpm = false ∧ s.txrdy = true ∧
      readable s.cfg (s.txbase + s.txidx) = true ∧ readByte s.mem (s.txbase + s.txidx) = b ∧
      (b = s.cfg.sync ∨ b = s.cfg.escape) := by decide

theorem witness_EscapeOperandIsWritten :
    let s := { inBody .framed 1 with txstate := TxState.tEsc2, txcur := 0x7E#8 }
    s.txstate = .tEsc2 ∧ s.dphase = .dIdle ∧ s.lpm = false ∧ s.txrdy = true := by decide

theorem witness_ClosingDelimiterCompletes :
    let s := { inBody .framed 3 with txstate := TxState.tClose }
    s.txstate = .tClose ∧ s.dphase = .dIdle ∧ s.lpm = false ∧ s.txrdy = true := by decide

/-- The byte SYNC in the middle, and the last byte. -/
theorem witness_RawByteIsEmittedUnchanged :
    ∀ p ∈ [(1, 0x7E#8), (2, 0x42#8)],
      let s := inBody .raw p.1
      s.txstate = .tBody ∧ s.txmode = .raw ∧ s.dphase = .dIdle ∧ s.lpm = false ∧ s.txrdy = true ∧
      readable s.cfg (s.txbase + s.txidx) = true ∧ readByte s.mem (s.txbase + s.txidx) = p.2 := by decide

/-- Each way to block. -/
theorem witness_MainlineBlocks :
    ((inBody .framed 1).txstate ≠ .tIdle ∧ State.txrdy { inBody .framed 1 with txrdy := false } = false) ∧
    (calling 2 0#8 ⟨.hunt, false, []⟩).dphase ≠ .dIdle ∧ State.lpm { ready with lpm := true } = true ∧
    ((inBody .framed 1).txstate = .tBody ∧ readable hole201 (0x0200 + 1) = false) ∧
    readable Config.standard (0xFFFF + 1) = false := by decide

theorem witness_TransmitLogGrowsOneReadyByteAtATime :
    see (step { inBody .raw 0 with inputs := [.mainline] }) State.txlog = some [0x41#8] ∧
    see (step { inBody .raw 0 with inputs := [.txAck] }) State.txlog = some [] := by decide

theorem witness_DispatchLeavesTheTransmitterAlone :
    see (perform .interrupt { inBody .raw 0 with rxifg := true }) State.dphase = some .dIdent ∧
    see (perform (.cbDone ⟨1, [], [(0x0201, 0#8)]⟩) { inBody .raw 0 with dphase := .dCall, cbslot := 2 })
      State.dphase = some .dExit := by decide

/-- A framed write of one reserved byte (T3 with SYNC), the hardware acknowledging each byte. -/
def oneByte (mode : TxMode) (q : List Move) : State :=
  { State.reset with
    txrdy := true, mem := [(0x0200, 0x7E#8)], txmode := mode, txbase := 0x0200, txlen := 1, txidx := 0,
    txstate := match mode with
      | .framed => .tOpen
      | .raw => .tBody
    inputs := q }

/-- The state before that write is accepted. -/
def beforeOneByte (q : List Move) : State :=
  { ({ State.reset with txrdy := true, mem := [(0x0200, 0x7E#8)] } : State) with inputs := q }

theorem inv_beforeOneByte (q : List Move) : (beforeOneByte q).Inv :=
  inv_inputs (inv_of_idle (by decide) (by decide) (by decide) (by decide) (fun _ h => (by cases h)) rfl rfl rfl
    (fun _ h => (by cases h))) q

/-- The moves after the acceptance. -/
def oneByteMoves : List Move := [.mainline, .txAck, .mainline, .txAck, .mainline, .txAck, .mainline]

theorem witness_WriteRun_framed (keep : Bool) :
    ∃ u, WriteRun keep (oneByte .framed oneByteMoves) u ∧ u.txstate = .tIdle :=
  ⟨_,
    .step (by decide) (fun _ h => (by cases h)) rfl (fun _ _ _ _ => rfl) <|
    .step (by decide) (fun _ h => (by cases h)) rfl (fun _ _ _ _ => rfl) <|
    .step (by decide) (fun _ h => (by cases h)) rfl (fun _ _ _ _ => rfl) <|
    .step (by decide) (fun _ h => (by cases h)) rfl (fun _ _ _ _ => rfl) <|
    .step (by decide) (fun _ h => (by cases h)) rfl (fun _ _ _ _ => rfl) <|
    .step (by decide) (fun _ h => (by cases h)) rfl (fun _ _ _ _ => rfl) <|
    .step (by decide) (fun _ h => (by cases h)) rfl (fun _ _ _ _ => rfl) (.done _), rfl⟩

theorem witness_FramedWriteEmitsTheFrame :
    ∃ s t u, s.Inv ∧ exec (.frameWrite 0x0200 1) s = .next t ∧ s.cmdReady = true ∧ WriteRun true t u ∧
      u.txstate = .tIdle := by
  obtain ⟨u, run, hu⟩ := witness_WriteRun_framed true
  exact ⟨beforeOneByte oneByteMoves, _, u, inv_beforeOneByte _, rfl, by decide, run, hu⟩

theorem witness_FramedWriteAlwaysEmitsAFrame :
    ∃ s t u, s.Inv ∧ exec (.frameWrite 0x0200 1) s = .next t ∧ s.cmdReady = true ∧ WriteRun false t u ∧
      u.txstate = .tIdle := by
  obtain ⟨u, run, hu⟩ := witness_WriteRun_framed false
  exact ⟨beforeOneByte oneByteMoves, _, u, inv_beforeOneByte _, rfl, by decide, run, hu⟩

theorem witness_RawWriteEmitsTheBuffer :
    ∃ s t u, s.Inv ∧ exec (.rawWrite 0x0200 1) s = .next t ∧ s.cmdReady = true ∧ WriteRun true t u ∧
      u.txstate = .tIdle :=
  ⟨beforeOneByte [.mainline], oneByte .raw [.mainline], _, inv_beforeOneByte _, rfl, by decide,
    .step (by decide) (fun _ h => (by cases h)) rfl (fun _ _ _ _ => rfl) (.done _), rfl⟩

/-- The start of FramedWriteCompletes, for the payload of P1. -/
def presented : State :=
  { ready with cmdPort := some 0x002000003, inputs := .mainline :: (ackSchedule 6 ++ [.sleep]) }

theorem witness_FramedWriteCompletes :
    presented.Inv ∧ presented.cmdReady = true ∧ (Instr.frameWrite 0x0200 3).wellFormed presented.cfg = true ∧
    presented.cmdPort = some (encode presented.cfg (.frameWrite 0x0200 3)).2 ∧
    (∀ k, k < 3 → readable presented.cfg (0x0200 + k) = true) ∧
    presented.inputs =
      .mainline ::
        (ackSchedule (3 + 2 + reservedCount presented.cfg (bufferBytes presented.mem 0x0200 3)) ++ [.sleep]) :=
  ⟨inv_of_idle (by decide) (by decide) (by decide) (by decide) (fun _ h => (by cases h; decide)) rfl rfl rfl
      (fun _ h => (by cases h)),
    by decide, by decide, rfl, by decide, by decide⟩

/-- A cause pending, of each kind, and none. -/
theorem witness_InterruptEntry :
    State.reset.dphase = .dIdle ∧ State.rxifg { State.reset with rxifg := true } = true ∧
    State.otherifg { State.reset with otherifg := true } = true ∧ State.reset.rxifg = false ∧
    State.reset.otherifg = false := by decide

theorem witness_ForeignEventIsIgnored :
    ∀ b ∈ [true, false],
      let s := { State.reset with dphase := DPhase.dIdent, otherifg := b }
      s.dphase = .dIdent ∧ s.rxifg = false ∧ s.otherifg = b := by decide

theorem witness_ReceiveEventReadsTheByte :
    ∀ b ∈ [true, false],
      let s := { State.reset with dphase := DPhase.dIdent, rxifg := true, otherifg := b }
      s.dphase = .dIdent ∧ s.rxifg = true := by decide

theorem witness_DefaultHandlerDoesNothing :
    (calling 0 0xAA#8 ⟨.hunt, false, []⟩).dphase = .dCall ∧ (calling 0 0xAA#8 ⟨.hunt, false, []⟩).cbslot = 0 := by
  decide

/-- The least and the greatest identifier and return value. -/
theorem witness_ExternalHandlerReturns :
    ∀ p ∈ [(2, (⟨0, [], [(0, 0#8)]⟩ : HandlerAnswer)), (0xFFFF, ⟨0xFF, [1#8], [(0xFFFF, 1#8)]⟩)],
      let s := calling p.1 0x05#8 ⟨.hunt, false, []⟩
      s.dphase = .dCall ∧ isExternal s.cfg s.cbslot = true ∧ p.2.ret < 2 ^ s.cfg.retW ∧
      ∀ w ∈ p.2.writes, w.1 < 2 ^ s.cfg.addrW := by decide

/-- An undefined identifier beside the range of the bank, and the defined ones at its ends. -/
theorem witness_CallWithoutAnAnswer :
    let s := fun (h : Nat) => { calling h 0x01#8 ⟨.hunt, false, []⟩ with cfg := bank23 }
    (∀ h ∈ [4, 0xFFFF], (s h).dphase = .dCall ∧ (s h).cbslot ≠ 0 ∧ (s h).cbslot ≠ 1 ∧
      isExternal (s h).cfg (s h).cbslot = false) ∧
    (∀ h ∈ [2, 3], (s h).dphase = .dCall ∧ (s h).cbslot ≠ 0 ∧ (s h).cbslot ≠ 1 ∧
      isExternal (s h).cfg (s h).cbslot = true) := by decide

theorem witness_InterruptExit :
    ∀ b ∈ [true, false], State.dphase { State.reset with dphase := .dExit, wakeReq := b } = .dExit := by decide

/-- Both disjuncts: REGISTER accepted, and an invocation logged. -/
theorem witness_SlotIsStableAndNamesTheHandler :
    (State.noReset { State.reset with cmdPort := some 0x20000FFFF, inputs := [.mainline] } ∧
      see (step { State.reset with cmdPort := some 0x20000FFFF, inputs := [.mainline] }) State.cbslot =
        some 0xFFFF) ∧
    (State.noReset { calling 0 0xAA#8 ⟨.hunt, false, []⟩ with inputs := [.interrupt] } ∧
      see (step { calling 0 0xAA#8 ⟨.hunt, false, []⟩ with inputs := [.interrupt] }) State.cblog =
        some [⟨0, 0xAA#8, 0⟩]) :=
  ⟨⟨fun _ h => (by cases h), by decide⟩, ⟨fun _ h => (by cases h), by decide⟩⟩

theorem witness_DefaultHandlerNeverWakes :
    let s := { calling 0 0xAA#8 ⟨.hunt, false, []⟩ with inputs := [.interrupt] }
    s.noReset ∧ s.cbslot = 0 ∧ s.wakeReq = false ∧ see (step s) State.wakelog = some [] :=
  ⟨fun _ h => (by cases h), rfl, rfl, by decide⟩

/-- A step that sends the signal, and one that does not. -/
theorem witness_WakeSignalIsOneShot :
    see (step { State.reset with dphase := .dExit, wakeReq := true, inputs := [.interrupt] }) State.wakelog =
      some [0] ∧
    see (step { State.reset with dphase := .dExit, inputs := [.interrupt] }) State.wakelog = some [] := by decide

/-- Asleep, with a handler of the odd-byte bank being called, and its answer waiting. -/
def oddCall (b : Byte) (ret : Nat) : State :=
  { calling 2 b ⟨.hunt, false, []⟩ with lpm := true, inputs := [.cbDone ⟨ret, [], []⟩, .interrupt] }

theorem witness_OddByteHandlerWakesOnOddBytes :
    ((oddCall 0x05#8 1).Inv ∧ (oddCall 0x05#8 1).dphase = .dCall ∧
      isExternal (oddCall 0x05#8 1).cfg (oddCall 0x05#8 1).cbslot = true ∧
      admitted oddBank (oddCall 0x05#8 1) ⟨1, [], []⟩ ∧ answerOk (oddCall 0x05#8 1).cfg ⟨1, [], []⟩ = true ∧
      (oddCall 0x05#8 1).inputs = .cbDone ⟨1, [], []⟩ :: .interrupt :: []) ∧
    ((oddCall 0x04#8 0).Inv ∧ (oddCall 0x04#8 0).dphase = .dCall ∧
      isExternal (oddCall 0x04#8 0).cfg (oddCall 0x04#8 0).cbslot = true ∧
      admitted oddBank (oddCall 0x04#8 0) ⟨0, [], []⟩ ∧ answerOk (oddCall 0x04#8 0).cfg ⟨0, [], []⟩ = true ∧
      (oddCall 0x04#8 0).inputs = .cbDone ⟨0, [], []⟩ :: .interrupt :: []) :=
  ⟨⟨inv_of_idle (by decide) (by decide) rfl (fun _ h => (by cases h)) (fun _ h => (by cases h)) rfl rfl rfl
        (fun _ h => (by cases h)),
      rfl, by decide, rfl, by decide, rfl⟩,
    ⟨inv_of_idle (by decide) (by decide) rfl (fun _ h => (by cases h)) (fun _ h => (by cases h)) rfl rfl rfl
        (fun _ h => (by cases h)),
      rfl, by decide, rfl, by decide, rfl⟩⟩

theorem witness_DecoderReturnsOneOnAGoodFrame :
    let s := calling 1 0x7E#8 ⟨.data, false, []⟩
    s.dphase = .dCall ∧ s.cbslot = 1 ∧ s.wakeReq = false := by decide

theorem witness_DecoderOutsideAFrame :
    ∀ b ∈ [0x7E#8, 0x7D#8],
      let s := calling 1 b ⟨.hunt, false, []⟩
      s.dphase = .dCall ∧ s.cbslot = 1 ∧ s.dec.state = .hunt ∧
      ((b = s.cfg.sync ∧ s.rxbyte = s.cfg.sync) ∨ s.rxbyte ≠ s.cfg.sync) := by decide

/-- The four clauses. -/
theorem witness_DecoderInsideAFrame :
    let s := fun (b : Byte) (e : Bool) => { calling 1 b ⟨.data, e, [0x41#8, 0x42#8]⟩ with cfg := cap2 }
    (∀ b e, (s b e).dphase = .dCall ∧ (s b e).cbslot = 1 ∧ (s b e).dec.state = .data) ∧
    ((s 0x7E#8 false).rxbyte = cap2.sync ∧ (s 0x7E#8 false).dec.err = false) ∧
    ((s 0x7E#8 true).rxbyte = cap2.sync ∧ (s 0x7E#8 true).dec.err = true) ∧
    (s 0x7D#8 false).rxbyte = cap2.escape ∧
    ((s 0x43#8 false).rxbyte ≠ cap2.sync ∧ (s 0x43#8 false).rxbyte ≠ cap2.escape) :=
  ⟨fun _ _ => ⟨rfl, rfl, rfl⟩, by decide, by decide, by decide, by decide⟩

theorem witness_DecoderAfterAnEscape :
    ∀ b ∈ [0x7E#8, 0x7D#8],
      let s := calling 1 b ⟨.esc, false, [0x41#8]⟩
      s.dphase = .dCall ∧ s.cbslot = 1 ∧ s.dec.state = .esc ∧
      ((b = s.cfg.sync ∧ s.rxbyte = s.cfg.sync) ∨ s.rxbyte ≠ s.cfg.sync) := by decide

/-- One byte below the capacity; at the capacity; after an overflow. -/
theorem witness_BoundedAppend :
    ((⟨.data, false, [0x41#8]⟩ : Decoder).err = false ∧
      ∀ cap, cap2.decCap = some cap → (⟨.data, false, [0x41#8]⟩ : Decoder).buf.length < cap) ∧
    (∃ cap, cap2.decCap = some cap ∧ cap ≤ (⟨.data, false, [0x41#8, 0x42#8]⟩ : Decoder).buf.length) ∧
    (⟨.data, true, [0x41#8, 0x42#8]⟩ : Decoder).err = true :=
  ⟨⟨rfl, fun _ h => (by cases h; decide)⟩, ⟨2, rfl, by decide⟩, rfl⟩

theorem witness_WireSymbolsCallTheDecoder :
    ∀ b ∈ [0x7E#8, 0x7D#8, 0x41#8],
      let s := calling 1 b ⟨.data, false, []⟩
      configOk s.cfg = true ∧ s.dphase = .dCall ∧ s.cbslot = 1 ∧ s.rxbyte = b := by decide

/-- The payload exactly fits (D15). -/
theorem witness_DecoderInvertsTheEncoder :
    configOk cap2 = true ∧ (⟨.hunt, true, [0x41#8]⟩ : Decoder).state = .hunt ∧ fits cap2 [0x7E#8, 0x42#8] :=
  ⟨by decide, rfl, fun _ h => (by cases h; decide)⟩

/-- D6, with a capacity: bytes between the two frames, none after the second. -/
theorem witness_FramesInSequenceAreDelivered :
    configOk cap2 = true ∧ (⟨.hunt, false, []⟩ : Decoder).state = .hunt ∧
    ∀ part ∈ [([0x41#8], [0x99#8, 0x7D#8]), ([0x42#8, 0x7E#8], [])], fits cap2 part.1 ∧ cap2.sync ∉ part.2 :=
  ⟨by decide, rfl, fun part h => by
    rcases List.mem_pair.1 h with rfl | rfl
    · exact ⟨fun _ h => (by cases h; decide), by decide⟩
    · exact ⟨fun _ h => (by cases h; decide), by decide⟩⟩

/-- Asleep, with H_DECODER registered, and the frame of P4 arriving. -/
def arriving : State :=
  { State.reset with
    cbslot := 1, lpm := true,
    inputs := dispatchSchedule (frameEncode Config.standard [0x41#8, 0x7E#8, 0x42#8]) ++ [.txAck] }

theorem witness_ReceivedFrameWakesOnce :
    arriving.Inv ∧ arriving.cbslot = 1 ∧ arriving.dphase = .dIdle ∧ arriving.rxifg = false ∧
    arriving.otherifg = false ∧ arriving.dec.state = .hunt ∧ fits arriving.cfg [0x41#8, 0x7E#8, 0x42#8] ∧
    arriving.inputs = dispatchSchedule (frameEncode arriving.cfg [0x41#8, 0x7E#8, 0x42#8]) ++ [.txAck] :=
  ⟨inv_of_idle (by decide) (by decide) rfl (fun _ h => (by cases h)) (fun _ h => (by cases h)) rfl rfl rfl
      (fun _ h => (by cases h)),
    rfl, rfl, rfl, rfl, rfl, fun _ h => (by cases h), rfl⟩

/-- The three cases of a byte's arrival. -/
theorem witness_ByteArrival :
    (State.reset.rxifg = false ∧ State.reset.dphase = .dIdle) ∧
    State.rxifg { State.reset with rxifg := true } = true ∧
    ((calling 2 0x05#8 ⟨.hunt, false, []⟩).rxifg = false ∧
      (calling 2 0x05#8 ⟨.hunt, false, []⟩).dphase ≠ .dIdle) := by decide

theorem witness_ResetAbandonsEverything :
    let d : HoldDraw := ⟨.raw, 0xFFFF, 0xFFFF, 0xFFFF, 0xFF#8, 0xFF#8, 0xFF⟩
    let s := inBody .framed 1
    d.txbase < 2 ^ s.cfg.addrW ∧ d.txlen < 2 ^ s.cfg.lenW ∧ d.txidx < 2 ^ s.cfg.lenW ∧
    d.retval < 2 ^ s.cfg.retW := by decide

/-- A state, a port, a word and the instruction it decodes to. -/
def stepRuns (s : State) (src : Source) (w : Nat) (i : Instr) : Prop :=
  configOk s.cfg = true ∧ fetch (nextMove s) (beginStep s) = some (src, w) ∧ decode s.cfg src w = .ok i

/-- A word from each port. -/
theorem witness_StepRunsTheDecodedInstruction :
    stepRuns presented .cmd 0x002000003 (.frameWrite 0x0200 3) ∧
    stepRuns { inBody .framed 1 with inputs := [.mainline] } (.pay .framed) 0x7E .pSync ∧
    stepRuns { inBody .raw 2 with inputs := [.mainline] } (.pay .raw) 0x42 (.pRaw 0x42#8) ∧
    stepRuns { State.reset with dphase := .dIdent, rxifg := true, inputs := [.interrupt] } .evt 2 (.irqRx false) ∧
    stepRuns { calling 1 0x41#8 ⟨.data, false, []⟩ with inputs := [.interrupt] } .wire 0x41 (.wLit 0x41#8) :=
  ⟨⟨rfl, rfl, rfl⟩, ⟨rfl, rfl, rfl⟩, ⟨rfl, rfl, rfl⟩, ⟨rfl, rfl, rfl⟩, ⟨rfl, rfl, rfl⟩⟩

/-- The rows of the CFG_OK table of section 2, each with the disjunct it meets. -/
theorem witness_BadConstantsAreRefused :
    let s := fun (e : Byte) => { State.reset with cfg := { Config.standard with escape := e } }
    (s 0x7E#8).cfg.sync = (s 0x7E#8).cfg.escape ∧ (s 0x5E#8).cfg.sync = (s 0x5E#8).cfg.escape ^^^ 0x20#8 := by
  decide

theorem witness_EveryStepKeepsTheInvariant : presented.Inv ∧ see (step presented) State.txstate = some .tOpen :=
  ⟨witness_FramedWriteCompletes.1, by decide⟩

theorem witness_ResetHasTheInvariant :
    let e : EnvDraw := ⟨true, 0xFF#8, true, true, [(0, 1#8), (0xFFFF, 0xFF#8)], [0#8]⟩
    configOk Config.standard = true ∧
    holdOk Config.standard ⟨.raw, 0xFFFF, 0xFFFF, 0xFFFF, 0xFF#8, 0xFF#8, 0xFF⟩ = true ∧
    Memory.wf e.mem = true ∧ ∀ cell ∈ e.mem, cell.1 < 2 ^ Config.standard.addrW := by decide

theorem witness_SequencersFollowTheirRelations :
    State.noReset { inBody .raw 2 with inputs := [.mainline] } ∧
    see (step { inBody .raw 2 with inputs := [.mainline] }) State.txstate = some .tIdle :=
  ⟨fun _ h => (by cases h), by decide⟩

/-- An instruction; the answer of a handler; a store between operations. -/
theorem witness_BlockNeverWritesMemory :
    see (exec (.pRaw 0x41#8) (inBody .raw 0)) (fun t => readByte t.mem 0x0200) = some 0x41#8 ∧
    see (step { calling 2 0#8 ⟨.hunt, false, []⟩ with inputs := [.cbDone ⟨0, [], [(0xFFFF, 1#8)]⟩] })
      (fun t => readByte t.mem 0xFFFF) = some 1#8 ∧
    see (step { State.reset with inputs := [.store 0 2#8] }) (fun t => readByte t.mem 0) = some 2#8 := by decide

/-- A step that reads memory, and one that does not. -/
theorem witness_MemoryIsReadAtTheIndexOnly :
    see (step { inBody .framed 2 with inputs := [.mainline] }) (fun t => addressesRead t.strobes) = some [0x0202] ∧
    see (step { State.reset with inputs := [.sleep] }) (fun t => addressesRead t.strobes) = some [] := by decide

theorem witness_ReceiveRegisterIsReadOncePerEvent :
    let s := { State.reset with dphase := DPhase.dIdent, rxifg := true, rxbuf := 0x05#8 }
    s.rxifg = true ∧ see (step { s with inputs := [.interrupt] }) State.rxifg = some false ∧
    see (step { s with inputs := [.txAck] }) State.rxifg = some true := by decide

/-! ## The fairness premises (R178) can be met -/

/-- The schedule in which the external handler answers, the interrupt is left, and TXACK goes on for ever. -/
def fairSchedule : Nat → Move
  | 0 => .cbDone ⟨0, [], []⟩
  | 1 => .interrupt
  | _ => .txAck

/-- The run of that schedule from the call of handler 2 with an even byte. -/
def fairRun : Nat → State
  | 0 => { calling 2 0x04#8 ⟨.hunt, false, []⟩ with txrdy := true }
  | 1 => { calling 2 0x04#8 ⟨.hunt, false, []⟩ with txrdy := true, dphase := .dExit, cblog := [⟨2, 0x04#8, 0⟩] }
  | _ => { calling 2 0x04#8 ⟨.hunt, false, []⟩ with txrdy := true, dphase := .dIdle, cblog := [⟨2, 0x04#8, 0⟩] }

/-- The end of the external handler's call is a step of the dispatcher that FAIR_IRQ asks for. -/
theorem test_handler_answer_is_a_dispatcher_step :
    dispatcherStep oddBank (fairRun 0) (fairSchedule 0) ∧ ¬dispatcherStep oddBank (fairRun 0) .interrupt :=
  ⟨.inr ⟨rfl, ⟨0, [], []⟩, rfl, rfl, rfl⟩,
    fun h => h.elim (fun h => h.1.elim (fun e => by cases e) (fun e => by cases e))
      (fun h => h.2.elim fun _ h => by cases h.2.2)⟩

theorem witness_fair_run :
    isRun fairSchedule fairRun ∧ FairIrq oddBank fairSchedule fairRun ∧ FairTxAck fairSchedule fairRun ∧
    ForeignQuiescent fairRun := by
  refine ⟨fun n => ?_, fun n always => ?_, fun n always => ?_, fun n => ⟨n, le_refl n, ?_⟩⟩
  · match n with
    | 0 => rfl
    | 1 => rfl
    | k + 2 =>
      have later : step { fairRun 2 with inputs := [.txAck] } = .next (fairRun 2) := rfl
      exact later
  · obtain ⟨m, hm⟩ := always (n + 2) (by omega)
    cases hm.1
  · obtain ⟨m, hm⟩ := always (n + 2) (by omega)
    cases hm.1
  · match n with
    | 0 => rfl
    | 1 => rfl
    | _ + 2 => rfl

theorem witness_LogsOnlyGrow :
    see (step { ready with txlog := [0x7E#8], inputs := [.rst zeroHold] }) State.txlog = some [0x7E#8] := by decide

end Sys2Proof.Tests
end

section
/-! SUPPORT. The scope of the block (00_scope.md): a configuration without CFG_OK has no behaviour. -/

namespace Sys2Proof.Proofs

open Sys2Proof Sys2Proof.Machine

theorem cfgOk_eq_false_iff (c : Config) :
    cfgOk c = false ↔ c.sync = c.escape ∨ c.sync = c.escape ^^^ xmask := by
  simp only [cfgOk, Bool.and_eq_false_iff, bne_eq_false_iff_eq]

theorem configOk_of_not_cfgOk {c : Config} (h : cfgOk c = false) : configOk c = false := by
  simp [configOk, h]

/-- The branch of `step` that `step_eq_perform` leaves out. -/
theorem step_eq_refused {s : State} (h : configOk s.cfg = false) : step s = .refused .badConfiguration := by
  simp [step, h]

/-- Settles O53: each of the two equalities is a violation of CFG_OK (R3), so the test of `step` fails. -/
theorem badConstantsAreRefused : Obligations.BadConstantsAreRefused := by
  intro s bad
  have notOk : cfgOk s.cfg = false := (cfgOk_eq_false_iff s.cfg).mpr bad
  exact step_eq_refused (configOk_of_not_cfgOk notOk)

end Sys2Proof.Proofs
end

section
/-! SUPPORT. The invariant of the machine (R10, R12, R16 to R18, R22, R173): what each update of the state needs to
keep it, and that every move meets the need. A structure update names the conjuncts that an update of the state
touches; the others carry over because they read unchanged fields. -/

namespace Sys2Proof.Proofs

open Sys2Proof Sys2Proof.Machine

/-! The guards, as propositions. -/

theorem truthy_iff (ret : Nat) : truthy ret = true ↔ ret ≠ 0 := by
  simp [truthy]

theorem answerOk_iff (c : Config) (a : HandlerAnswer) :
    answerOk c a = true ↔ a.ret < 2 ^ c.retW ∧ ∀ w ∈ a.writes, w.1 < 2 ^ c.addrW := by
  simp [answerOk]

theorem holdOk_iff (c : Config) (d : HoldDraw) :
    holdOk c d = true ↔
      d.txbase < 2 ^ c.addrW ∧ d.txlen < 2 ^ c.lenW ∧ d.txidx < 2 ^ c.lenW ∧ d.retval < 2 ^ c.retW := by
  simp [holdOk, and_assoc]

/-! The decoder's buffer. -/

/-- DBUF holds at most DEC_CAP bytes, and exactly as many after an overflow (R22, R144). -/
structure DecoderFits (c : Config) (d : Decoder) : Prop where
  buffer : ∀ cap, c.decCap = some cap → d.buf.length ≤ cap
  overflow : d.err = true → c.decCap = some d.buf.length

theorem decoderFits_of_inv {s : State} (hi : s.Inv) : DecoderFits s.cfg s.dec := ⟨hi.buffer, hi.overflow⟩

/-- The bound does not depend on DSTATE. -/
theorem decoderFits_withState {c : Config} {d : Decoder} (fits : DecoderFits c d) (st : DecState) :
    DecoderFits c { d with state := st } := ⟨fits.buffer, fits.overflow⟩

/-- An empty buffer without overflow fits in any capacity. -/
theorem decoderFits_empty (c : Config) (st : DecState) : DecoderFits c ⟨st, false, []⟩ :=
  ⟨fun _ _ => Nat.zero_le _, nofun⟩

theorem underCap_iff (c : Config) (n : Nat) : underCap c n = true ↔ ∀ cap, c.decCap = some cap → n < cap := by
  unfold underCap
  cases c.decCap <;> simp

/-- A byte is appended only below the capacity, and an overflow is noted only at the capacity (R144). -/
theorem decAppend_fits {c : Config} {d : Decoder} (fits : DecoderFits c d) (v : Byte) :
    DecoderFits c (decAppend c d v) := by
  unfold decAppend
  split
  case isTrue room =>
    simp only [Bool.and_eq_true, Bool.not_eq_true', underCap_iff] at room
    obtain ⟨noErr, below⟩ := room
    refine ⟨fun cap hcap => ?_, fun err => ?_⟩
    · simpa using below cap hcap
    · simp [noErr] at err
  case isFalse full =>
    refine ⟨fits.buffer, fun _ => ?_⟩
    cases err : d.err with
    | true => exact fits.overflow err
    | false =>
      simp only [err, Bool.not_false, Bool.true_and, underCap_iff] at full
      push Not at full
      obtain ⟨cap, hcap, atCap⟩ := full
      rw [hcap, le_antisymm (fits.buffer cap hcap) atCap]

/-- Every transition of R136 keeps the buffer within its capacity. -/
theorem decStep_fits {c : Config} {d : Decoder} (fits : DecoderFits c d) (b : Byte) :
    DecoderFits c (decStep c d b).dec := by
  rcases decStep_cases c d b with ⟨-, -, h⟩ | ⟨-, -, h⟩ | ⟨-, -, -, h⟩ | ⟨-, -, -, h⟩ | ⟨-, -, -, h⟩ |
    ⟨-, -, -, h⟩ | ⟨-, -, h⟩ | ⟨-, -, h⟩ <;> rw [h]
  · exact decoderFits_empty c _
  · exact fits
  · exact decoderFits_withState fits _
  · exact decoderFits_withState fits _
  · exact decoderFits_withState fits _
  · exact decAppend_fits fits b
  · exact decoderFits_withState fits _
  · exact decoderFits_withState (decAppend_fits fits _) _

/-- The decoder answers 0 or 1 (R136). -/
theorem decStep_ret_le_one (c : Config) (d : Decoder) (b : Byte) : (decStep c d b).ret ≤ 1 := by
  rcases decStep_cases c d b with ⟨-, -, h⟩ | ⟨-, -, h⟩ | ⟨-, -, -, h⟩ | ⟨-, -, -, h⟩ | ⟨-, -, -, h⟩ |
    ⟨-, -, -, h⟩ | ⟨-, -, h⟩ | ⟨-, -, h⟩ <;> simp [h]

section
variable {s : State}

/-! What the invariant says about a phase. -/

/-- Main-line is awake for the whole of a write (R173). -/
theorem lpm_eq_false_of_busy (hi : s.Inv) (busy : s.txstate ≠ .tIdle) : s.lpm = false :=
  Bool.eq_false_iff.mpr fun asleep => busy (hi.awake asleep)

/-- Outside the interrupt exit no wake request is latched (R12). -/
theorem wakeReq_eq_false (hi : s.Inv) (phase : s.dphase ≠ .dExit) : s.wakeReq = false :=
  Bool.eq_false_iff.mpr fun latched => phase (hi.latch latched).1

/-! Updates of the command port, the pulses and the logs. -/

theorem inv_beginStep (hi : s.Inv) : (beginStep s).Inv := by
  unfold beginStep
  split <;> exact { hi with }

theorem inv_takeCommand (hi : s.Inv) : State.Inv { s with cmdPort := none } :=
  { hi with command := nofun }

theorem inv_present (hi : s.Inv) {w : Nat} (ok : w < 2 ^ s.cfg.cmdW) :
    State.Inv { s with cmdPort := some w } :=
  { hi with command := fun _ h => Option.some.inj h ▸ ok }

theorem inv_cmdDone (hi : s.Inv) : s.cmdDone.Inv := { hi with }

theorem inv_txWrite (hi : s.Inv) (b : Byte) : (s.txWrite b).Inv := { hi with }

theorem inv_readPayload (hi : s.Inv) : s.readPayload.Inv := { hi with }

/-! The TX engine. -/

/-- Acceptance keeps the invariant when the first state suits the mode and the length (R47, R85, R100). -/
theorem inv_startWrite (hi : s.Inv) {mode : TxMode} {addr len : Nat} {next : TxState}
    (ready : s.cmdReady = true) (ok : writeOk s.cfg addr len = true)
    (first : next = .tIdle ∨ (next = .tOpen ∧ mode = .framed) ∨ (next = .tBody ∧ 0 < len)) :
    (s.startWrite mode addr len next).Inv := by
  obtain ⟨-, -, awake⟩ := (cmdReady_iff s).mp ready
  obtain ⟨addrFits, lenFits, inRange⟩ := (writeOk_iff s.cfg addr len).mp ok
  exact { hi with
    base := addrFits
    len := lenFits
    idx := Nat.two_pow_pos _
    range := fun _ => inRange
    opening := by rintro rfl; simpa using first
    body := by rintro rfl; simpa using first
    pair := by rintro rfl; simp at first
    closing := by rintro rfl; simp at first
    awake := fun asleep => by simp [awake] at asleep }

/-- A write in progress goes on from the index `idx` in a state that suits it, or is over (R16). -/
theorem inv_continueWrite (hi : s.Inv) (busy : s.txstate ≠ .tIdle) {idx : Nat} {next : TxState}
    (within : idx ≤ s.txlen)
    (suits : next = .tIdle ∨ (next = .tBody ∧ idx < s.txlen) ∨
      (next = .tClose ∧ s.txmode = .framed ∧ idx = s.txlen)) :
    State.Inv { s with txidx := idx, txstate := next } := by
  have awake := lpm_eq_false_of_busy hi busy
  exact { hi with
    idx := lt_of_le_of_lt within hi.len
    range := fun _ => hi.range busy
    opening := by rintro rfl; simp at suits
    body := by rintro rfl; simpa using suits
    pair := by rintro rfl; simp at suits
    closing := by rintro rfl; simpa using suits
    awake := fun asleep => by simp [awake] at asleep }

/-- The opening delimiter: with no payload the frame is closed next (R86). -/
theorem inv_afterOpening (hi : s.Inv) (opening : s.txstate = .tOpen) :
    State.Inv { s with txstate := if s.txlen = 0 then .tClose else .tBody } := by
  obtain ⟨framed, start⟩ := hi.opening opening
  refine inv_continueWrite hi (by simp [opening]) (by omega) ?_
  split
  case isTrue empty => exact .inr (.inr ⟨rfl, framed, start.trans empty.symm⟩)
  case isFalse nonempty => exact .inr (.inl ⟨rfl, by omega⟩)

/-- A framed payload byte has been emitted: the last one is followed by the delimiter (R87, R89). -/
theorem inv_advanceFramed (hi : s.Inv) (busy : s.txstate ≠ .tIdle) (framed : s.txmode = .framed)
    (left : s.txidx < s.txlen) : s.advanceFramed.Inv := by
  refine inv_continueWrite hi busy left ?_
  split
  case isTrue last => exact .inr (.inr ⟨rfl, framed, last⟩)
  case isFalse more => exact .inr (.inl ⟨rfl, by omega⟩)

/-- A raw payload byte has been emitted: the write is over with the last one (R101). -/
theorem inv_advanceRaw (hi : s.Inv) (body : s.txstate = .tBody) : s.advanceRaw.Inv := by
  have continued : State.Inv
      { s with txidx := s.txidx + 1, txstate := if s.txidx + 1 = s.txlen then .tIdle else .tBody } := by
    have left := hi.body body
    refine inv_continueWrite hi (by simp [body]) left ?_
    split
    case isTrue => exact .inl rfl
    case isFalse more => exact .inr (.inl ⟨rfl, by omega⟩)
  exact { continued with }

/-- The closing delimiter ends the write (R90). -/
theorem inv_afterClosing (hi : s.Inv) (closing : s.txstate = .tClose) :
    State.Inv { s with txstate := .tIdle } :=
  inv_continueWrite hi (by simp [closing]) (hi.closing closing).2.le (.inl rfl)

/-- The first half of an escape pair: TXCUR holds the reserved byte (R88). -/
theorem inv_emitEscape (hi : s.Inv) {b : Byte} (ready : s.bodyReady .framed b = true)
    (reserved : isReserved s.cfg b = true) : (s.emitEscape b).Inv := by
  obtain ⟨body, framed, -, -⟩ := (bodyReady_iff s .framed b).mp ready
  have busy : s.txstate ≠ .tIdle := by simp [body]
  have awake := lpm_eq_false_of_busy hi busy
  exact { hi with
    range := fun _ => hi.range busy
    opening := nofun
    body := nofun
    pair := fun _ => ⟨framed, hi.body body, reserved⟩
    closing := nofun
    awake := fun asleep => by simp [awake] at asleep }

/-! The dispatcher. -/

/-- DPHASE may move freely where no wake request is latched. -/
theorem inv_withDphase (hi : s.Inv) (unlatched : s.wakeReq = false) (p : DPhase) :
    State.Inv { s with dphase := p } :=
  { hi with latch := fun latched => by simp [unlatched] at latched }

/-- `RxRead()` outside the interrupt exit (R116). -/
theorem inv_rxRead (hi : s.Inv) (phase : s.dphase ≠ .dExit) : s.rxRead.Inv :=
  { inv_withDphase hi (wakeReq_eq_false hi phase) .dCall with }

/-- The end of a call latches a wake request only for its own nonzero return value (R117, R118). -/
theorem inv_finishCall (hi : s.Inv) (phase : s.dphase ≠ .dExit) {ret : Nat} (ok : ret < 2 ^ s.cfg.retW) :
    (s.finishCall ret).Inv :=
  { hi with
    ret := ok
    latch := fun latched => by simpa [wakeReq_eq_false hi phase, truthy_iff] using latched }

/-- The decoder's call (R125). -/
theorem inv_finishDecoder (hi : s.Inv) (phase : s.dphase ≠ .dExit) :
    (s.finishDecoder (decStep s.cfg s.dec s.rxbyte)).Inv := by
  have fits := decStep_fits (decoderFits_of_inv hi) s.rxbyte
  obtain ⟨-, -, -, -, retW⟩ := (configOk_iff s.cfg).mp hi.config
  have ret : (decStep s.cfg s.dec s.rxbyte).ret < 2 ^ s.cfg.retW :=
    lt_of_le_of_lt (decStep_ret_le_one _ _ _) (Nat.one_lt_two_pow (by omega))
  exact { inv_finishCall hi phase ret with
    buffer := fits.buffer
    overflow := fits.overflow }

/-- The interrupt return clears the latch (R168). -/
theorem inv_leaveInterrupt (hi : s.Inv) : s.leaveInterrupt.Inv := by
  unfold State.leaveInterrupt
  split
  case isTrue =>
    exact { hi with
      awake := nofun
      latch := nofun }
  case isFalse unlatched => exact inv_withDphase hi (by simpa using unlatched) .dIdle

/-! Memory, sleep and reset. -/

/-- Bytes written inside the address space (R40). -/
theorem inv_writeBytes (hi : s.Inv) {ws : List (Nat × Byte)} (ok : ∀ w ∈ ws, w.1 < 2 ^ s.cfg.addrW) :
    State.Inv { s with mem := writeBytes s.mem ws } :=
  { hi with
    memory := writeBytes_wf s.mem ws hi.memory
    inside := fun a v listed => (mem_writeBytes s.mem ws (a, v) listed).elim (ok (a, v)) (hi.inside a v) }

/-- The processor goes to sleep between writes (R173). -/
theorem inv_sleep (hi : s.Inv) (idle : s.txstate = .tIdle) : State.Inv { s with lpm := true } :=
  { hi with awake := fun _ => idle }

/-- The reset input, for values the unspecified elements have bits for (R196, R200). -/
theorem inv_warmReset (hi : s.Inv) {d : HoldDraw} (ok : holdOk s.cfg d = true) : (s.warmReset d).Inv := by
  obtain ⟨base, len, idx, ret⟩ := (holdOk_iff s.cfg d).mp ok
  have fits := decoderFits_empty s.cfg .hunt
  exact { hi with
    slot := Nat.two_pow_pos _
    ret := ret
    base := base
    len := len
    idx := idx
    range := fun busy => absurd rfl busy
    opening := nofun
    body := nofun
    pair := nofun
    closing := nofun
    awake := nofun
    latch := nofun
    buffer := fits.buffer
    overflow := fits.overflow }

end

/-- Every move meets what its update needs to keep the invariant. -/
theorem move_keeps_inv {m : Move} {s t : State} (hi : s.Inv) (moved : MoveCase m s t) : t.Inv := by
  cases moved with
  | wait => exact hi
  | acceptFrame _ w a l ready _ _ ok =>
    exact inv_startWrite (inv_takeCommand hi) ready ok (.inr (.inl ⟨rfl, rfl⟩))
  | acceptEmptyRaw _ w a ready _ _ ok =>
    exact inv_cmdDone (inv_startWrite (inv_takeCommand hi) ready ok (.inl rfl))
  | acceptRaw _ w a l ready _ _ ok pos =>
    exact inv_startWrite (inv_takeCommand hi) ready ok (.inr (.inr ⟨rfl, Nat.pos_of_ne_zero pos⟩))
  | acceptRegister _ w h _ _ _ ok => exact { inv_takeCommand hi with slot := ok }
  | plain _ b ready _ =>
    obtain ⟨body, framed, -, -⟩ := (bodyReady_iff s .framed b).mp ready
    exact inv_advanceFramed (inv_txWrite (inv_readPayload hi) b) (by simp [body]) framed (hi.body body)
  | escape _ b ready reserved => exact inv_emitEscape hi ready reserved
  | raw _ b ready =>
    obtain ⟨body, -, -, -⟩ := (bodyReady_iff s .raw b).mp ready
    exact inv_advanceRaw (inv_txWrite (inv_readPayload hi) b) body
  | opening _ inOpen _ => exact inv_afterOpening (inv_txWrite hi _) inOpen
  | operand _ inEsc2 _ =>
    obtain ⟨framed, left, -⟩ := hi.pair inEsc2
    exact inv_advanceFramed (inv_txWrite hi _) (by simp [inEsc2]) framed left
  | closing _ inClose _ => exact inv_cmdDone (inv_afterClosing (inv_txWrite hi _) inClose)
  | enter _ phase _ => exact inv_withDphase hi (wakeReq_eq_false hi (by simp [phase])) .dIdent
  | read _ phase _ => exact inv_rxRead hi (by simp [phase])
  | ignore _ phase _ => exact inv_withDphase hi (wakeReq_eq_false hi (by simp [phase])) .dExit
  | default _ phase _ => exact inv_finishCall hi (by simp [phase]) (Nat.two_pow_pos _)
  | decoder _ phase _ => exact inv_finishDecoder hi (by simp [phase])
  | leave _ _ => exact inv_leaveInterrupt hi
  | answer _ a phase _ ok =>
    obtain ⟨ret, inside⟩ := (answerOk_iff s.cfg a).mp ok
    have written := inv_writeBytes hi inside
    exact { inv_finishCall written (by simp [phase]) ret with }
  | present _ w ok _ => exact inv_present hi ok
  | ack | overrun | arrive | foreign => exact { hi with }
  | sleep _ ready => exact inv_sleep hi ((cmdReady_iff s).mp ready).1
  | store _ a v ok _ => exact inv_writeBytes hi (ws := [(a, v)]) (by simpa using ok)
  | reset _ d ok => exact inv_warmReset hi ok

/-- Settles O54: a step is a move made at the state where it has been taken from the queue (`step_cases`), and every
move keeps the invariant. -/
theorem everyStepKeepsTheInvariant : Obligations.EveryStepKeepsTheInvariant := by
  intro s t hi stepped
  obtain ⟨-, moved⟩ := step_cases stepped
  exact move_keeps_inv (inv_beginStep hi) moved

end Sys2Proof.Proofs
end

section
/-! SUPPORT. Acceptance at the top of memory (R47), and where main-line has no step (R48, R92, R166, R172). -/

namespace Sys2Proof.Proofs

open Sys2Proof Sys2Proof.Machine

/-! The address condition. -/

/-- Settles O13: the operands fail the address condition, which acceptance tests for both write commands. -/
theorem wrappingWritesAreRefused : Obligations.WrappingWritesAreRefused := by
  intro s addr len idle outside awake wraps
  have ready : s.cmdReady = true := (cmdReady_iff s).mpr ⟨idle, outside, awake⟩
  have notOk : ¬ writeOk s.cfg addr len = true := fun ok =>
    absurd ((writeOk_iff s.cfg addr len).mp ok).2.2 (Nat.not_le.mpr wraps)
  constructor
  · simp only [exec, execFrameWrite, ready, if_true, if_neg notOk]
  · simp only [exec, execRawWrite, ready, if_true, if_neg notOk]

/-! Blocking. -/

theorem payloadByte_eq_none (s : State) : s.payloadByte = none ↔ readable s.cfg s.payloadAddr = false := by
  unfold State.payloadByte
  split <;> simp_all

theorem mlRun_iff (s : State) : s.mlRun = true ↔ s.dphase = .dIdle ∧ s.lpm = false := by
  simp [State.mlRun]

theorem bodyReady_eq_false {s : State} (blocked : s.txEnabled = false) (mode : TxMode) (b : Byte) :
    s.bodyReady mode b = false := by
  simp [State.bodyReady, blocked]

/-- A payload byte of any class waits while the transmitter may not write (R92). -/
theorem exec_payload_of_blocked {s : State} (blocked : s.txEnabled = false) (mode : TxMode) (b : Byte) :
    exec (decodePayload s.cfg mode b) s = .next s := by
  cases mode with
  | raw => simp [decodePayload, exec, execPRaw, bodyReady_eq_false blocked]
  | framed =>
    unfold decodePayload
    split_ifs
    · simp [exec, execPSync, bodyReady_eq_false blocked]
    · simp [exec, execPEscape, bodyReady_eq_false blocked]
    · simp [exec, execPPlain, bodyReady_eq_false blocked]

/-- The delimiters and the second half of a pair wait for the transmitter as well (R92). -/
theorem mainlineStep_of_blocked {s : State} (blocked : s.txEnabled = false) : mainlineStep s = s := by
  unfold mainlineStep
  split
  · rfl
  · simp [openFrame, blocked]
  · rfl
  · simp [emitOperand, blocked]
  · simp [closeFrame, blocked]

/-- With no command accepted and no payload byte to read, a main-line move is a step that reads no word. -/
theorem perform_mainline_of_unfetched {s : State} (notReady : s.cmdReady = false)
    (unread : s.txstate = .tBody → s.mlRun = true → s.payloadByte = none) :
    perform .mainline s = .next (mainlineStep s) := by
  have nothing : fetch .mainline s = none := by
    simp only [fetch, notReady, Bool.false_eq_true, if_false]
    split
    case isTrue inBody =>
      simp only [Bool.and_eq_true, beq_iff_eq] at inBody
      simp [unread inBody.1 inBody.2]
    case isFalse => rfl
  simp only [perform, nothing, act]

/-- Where no command is accepted and the transmitter may not write, main-line has no step. -/
theorem perform_mainline_of_blocked {s : State} (notReady : s.cmdReady = false) (blocked : s.txEnabled = false) :
    perform .mainline s = .next s := by
  by_cases reads : s.txstate = .tBody ∧ s.mlRun = true ∧ ∃ b, s.payloadByte = some b
  · obtain ⟨inBody, run, b, byte⟩ := reads
    rw [perform_payload inBody run byte, exec_payload_of_blocked blocked]
  · have unread : s.txstate = .tBody → s.mlRun = true → s.payloadByte = none := fun inBody run =>
      Option.eq_none_iff_forall_ne_some.mpr fun b byte => reads ⟨inBody, run, b, byte⟩
    rw [perform_mainline_of_unfetched notReady unread, mainlineStep_of_blocked blocked]

/-- Settles O21: in a write with TXRDY = 0, in the interrupt context and in sleep no command is accepted and the
transmitter may not write; at an unreadable address there is no word, and T_BODY has no other step. -/
theorem mainlineBlocks : Obligations.MainlineBlocks := by
  intro s
  constructor
  · intro blocked
    apply perform_mainline_of_blocked
    · rw [← Bool.not_eq_true, cmdReady_iff]
      rintro ⟨idle, outside, awake⟩
      rcases blocked with ⟨busy, -⟩ | inside | asleep
      · exact busy idle
      · exact inside outside
      · simp [awake] at asleep
    · rw [← Bool.not_eq_true, txEnabled_iff]
      rintro ⟨⟨outside, awake⟩, ready⟩
      rcases blocked with ⟨-, notReady⟩ | inside | asleep
      · simp [notReady] at ready
      · exact inside outside
      · simp [awake] at asleep
  · intro inBody unreadable
    have notReady : s.cmdReady = false := by simp [State.cmdReady, inBody]
    rw [perform_mainline_of_unfetched notReady fun _ _ => (payloadByte_eq_none s).mpr unreadable]
    simp [mainlineStep, inBody]

end Sys2Proof.Proofs
end

section
/-! SUPPORT. What a move does to the slot and to the log of invocations (R54, R55, R111, R117). -/

namespace Sys2Proof.Proofs

open Sys2Proof Sys2Proof.Machine

/-- Only an accepted REGISTER and a reset touch CBSLOT (R54, R55, R111). -/
theorem move_cbslot {m : Move} {s t : State} (live : ∀ d, m ≠ .rst d) (moved : MoveCase m s t) :
    t.cbslot = s.cbslot ∨
      (m = .mainline ∧ s.cmdReady = true ∧
        ∃ w, s.cmdPort = some w ∧ decode s.cfg .cmd w = .ok (.register t.cbslot)) := by
  cases moved with
  | acceptRegister _ w _ ready waiting word _ => exact .inr ⟨rfl, ready, w, waiting, word⟩
  | reset _ d _ => exact absurd rfl (live d)
  | leave => exact .inl (leaveInterrupt_cbslot s)
  | _ => exact .inl rfl

/-- A move logs an invocation only where it ends a call, and then with the slot, RXBYTE and what the handler
returned (R117). -/
theorem move_cblog {m : Move} {s t : State} (moved : MoveCase m s t) :
    t.cblog = s.cblog ∨
      (s.dphase = .dCall ∧ t.dphase = .dExit ∧ t.cblog = s.cblog ++ [⟨s.cbslot, s.rxbyte, t.retval⟩]) := by
  cases moved with
  | default _ phase _ | decoder _ phase _ | answer _ _ phase _ _ => exact .inr ⟨phase, rfl, rfl⟩
  | leave => exact .inl (leaveInterrupt_cblog s)
  | _ => exact .inl rfl

/-- Settles O35: a step is a move made at the state where it has been taken from the queue, which differs from the
state before in the model's own fields only. -/
theorem slotIsStableAndNamesTheHandler : Obligations.SlotIsStableAndNamesTheHandler := by
  intro s t live stepped
  obtain ⟨-, moved⟩ := step_cases stepped
  constructor
  · rcases move_cbslot live moved with kept | ⟨mainline, ready, w, waiting, word⟩
    · exact .inl (by simpa using kept)
    · obtain ⟨idle, outside, awake⟩ := (cmdReady_iff s).mp (by simpa using ready)
      exact .inr ⟨mainline, outside, awake, idle, w, by simpa using waiting, by simpa using word⟩
  · simpa using move_cblog moved

end Sys2Proof.Proofs
end

section
/-! SUPPORT. Who writes memory and who reads it (R41, R45, R49, R171). -/

namespace Sys2Proof.Proofs

open Sys2Proof Sys2Proof.Machine

/-! Writes by instructions. -/

/-- If the outcome is a next state, its memory is that of `s`. -/
def KeepsMemory (s : State) (o : Host.Outcome State Fault Refusal) : Prop :=
  ∀ t, o = .next t → t.mem = s.mem

section
variable {s t : State}

theorem keepsMemory_next (same : t.mem = s.mem) : KeepsMemory s (.next t) :=
  fun _ h => by cases h; exact same

theorem keepsMemory_refused (r : Refusal) : KeepsMemory s (.refused r) :=
  fun _ h => by cases h

theorem keepsMemory_ite {p : Prop} [Decidable p] {o o' : Host.Outcome State Fault Refusal}
    (yes : KeepsMemory s o) (no : KeepsMemory s o') : KeepsMemory s (if p then o else o') := by
  split
  · exact yes
  · exact no

theorem keepsMemory_wait : KeepsMemory s (.next s) := keepsMemory_next rfl

/-- An instruction with one guard, which waits where the guard is false. -/
theorem keepsMemory_guard {p : Prop} [Decidable p] (same : t.mem = s.mem) :
    KeepsMemory s (if p then .next t else .next s) :=
  keepsMemory_ite (keepsMemory_next same) keepsMemory_wait

end

theorem decoderTransition_mem (st : DecState) (b : Byte) (r : DecResult) (s : State) :
    (decoderTransition st b r s).mem = s.mem := by
  unfold decoderTransition
  split <;> rfl

theorem wireSymbol_mem (b : Byte) (s : State) : (wireSymbol b s).mem = s.mem := by
  unfold wireSymbol
  split <;> rfl

/-- No instruction writes memory (R41). -/
theorem exec_keepsMemory (i : Instr) (s : State) : KeepsMemory s (exec i s) := by
  cases i with
  | frameWrite addr len =>
    exact keepsMemory_ite (keepsMemory_ite (keepsMemory_next rfl) (keepsMemory_refused _)) keepsMemory_wait
  | rawWrite addr len =>
    exact keepsMemory_ite
      (keepsMemory_ite (keepsMemory_ite (keepsMemory_next rfl) (keepsMemory_next rfl)) (keepsMemory_refused _))
      keepsMemory_wait
  | register hid =>
    exact keepsMemory_ite (keepsMemory_ite (keepsMemory_next rfl) (keepsMemory_refused _)) keepsMemory_wait
  | cmdReserved payload => exact keepsMemory_refused _
  | wSync | wEscape => exact keepsMemory_next (wireSymbol_mem _ s)
  | wLit b => exact keepsMemory_ite keepsMemory_wait (keepsMemory_next (wireSymbol_mem b s))
  | decHuntSync | decDataSync | decDataEscape | decEscSync =>
    exact keepsMemory_next (decoderTransition_mem _ _ _ s)
  | decHuntOther b | decDataLit b | decEscOther b =>
    exact keepsMemory_ite keepsMemory_wait (keepsMemory_next (decoderTransition_mem _ b _ s))
  | pSync | pEscape | pPlain | pRaw | irqRx | irqForeign | irqNone => exact keepsMemory_guard rfl

/-! Writes by moves. -/

/-- A byte changes only by the answer of a handler that writes it, or by a store to it between operations
(R41, R49, R171). -/
theorem move_changes_byte {m : Move} {s t : State} {a : Nat} (moved : MoveCase m s t)
    (changed : readByte t.mem a ≠ readByte s.mem a) :
    (∃ answer, m = .cbDone answer ∧ a ∈ answer.writes.map Prod.fst) ∨
      (∃ v, m = .store a v ∧ s.cmdReady = true) := by
  cases moved with
  | answer _ h _ _ _ =>
    refine .inl ⟨h, rfl, ?_⟩
    by_contra elsewhere
    exact changed (readByte_writeBytes_other s.mem h.writes a elsewhere)
  | store _ b v _ ready =>
    have same : a = b := by
      by_contra elsewhere
      exact changed (readByte_writeByte_other s.mem b a v elsewhere)
    exact .inr ⟨v, by rw [same], ready⟩
  | leave => exact absurd (by rw [leaveInterrupt_mem]) changed
  | _ => exact absurd rfl changed

/-- Settles O57: no instruction touches memory, and of the moves only a handler's answer and a store do. -/
theorem blockNeverWritesMemory : Obligations.BlockNeverWritesMemory := by
  constructor
  · intro i s t ran a
    rw [exec_keepsMemory i s t ran]
  · intro s t a stepped changed
    obtain ⟨-, moved⟩ := step_cases stepped
    rcases move_changes_byte moved (by simpa using changed) with written | ⟨v, store, ready⟩
    · exact .inl written
    · exact .inr ⟨v, store, (cmdReady_iff s).mp (by simpa using ready)⟩

/-! Reads at the memory port. -/

@[simp] theorem addressesRead_append (p q : List Strobe) :
    addressesRead (p ++ q) = addressesRead p ++ addressesRead q := by
  induction p with
  | nil => rfl
  | cons pulse rest ih => cases pulse <;> simp [addressesRead, ih]

/-- The decoder's pulses read no memory. -/
@[simp] theorem addressesRead_eventStrobes (e : Option DecEvent) : addressesRead (eventStrobes e) = [] := by
  rcases e with - | (_ | _) <;> rfl

theorem txrdy_of_bodyReady {s : State} {mode : TxMode} {b : Byte} (ready : s.bodyReady mode b = true) :
    s.txstate = .tBody ∧ s.txrdy = true := by
  obtain ⟨inBody, -, enabled, -⟩ := (bodyReady_iff s mode b).mp ready
  exact ⟨inBody, ((txEnabled_iff s).mp enabled).2⟩

/-- A move made after the pulses of the step before are over reads memory only as a body step, whose guard holds
TXRDY = 1, and then at TXBASE + TXIDX alone (R45, R47). -/
theorem move_addressesRead {m : Move} {s t : State} (quiet : s.strobes = []) (moved : MoveCase m s t) :
    addressesRead t.strobes = [] ∨
      (s.txstate = .tBody ∧ s.txrdy = true ∧ addressesRead t.strobes = [s.txbase + s.txidx]) := by
  cases moved with
  | plain _ b ready _ | escape _ b ready _ =>
    obtain ⟨inBody, txrdy⟩ := txrdy_of_bodyReady ready
    refine .inr ⟨inBody, txrdy, ?_⟩
    simp [quiet, addressesRead, State.payloadAddr, State.emitEscape]
  | raw _ b ready =>
    obtain ⟨inBody, txrdy⟩ := txrdy_of_bodyReady ready
    refine .inr ⟨inBody, txrdy, ?_⟩
    simp only [advanceRaw_strobes]
    split <;> simp [quiet, addressesRead, State.payloadAddr]
  | leave =>
    left
    simp only [leaveInterrupt_strobes]
    split <;> simp [quiet, addressesRead]
  | _ => exact .inl (by simp [quiet, addressesRead])

/-- Settles O58: `beginStep` clears the pulses of the step before, so those read are the move's own. -/
theorem memoryIsReadAtTheIndexOnly : Obligations.MemoryIsReadAtTheIndexOnly := by
  intro s t stepped
  obtain ⟨-, moved⟩ := step_cases stepped
  simpa using move_addressesRead (beginStep_strobes s) moved

end Sys2Proof.Proofs
end

section
/-! SUPPORT. The words of the four formats: what the decoder reads from each (R61, R62, R70, R72 to R75, R77, R136),
and which word an accepted one was. -/

namespace Sys2Proof.Proofs

open Sys2Proof Sys2Proof.Machine Sys2Proof.Laws

/-! Fields of a number. -/

/-- A field is read from the bits below its upper end. -/
theorem bitField_eq_low (v lo n : Nat) : bitField v lo n = bitField v 0 (lo + n) / 2 ^ lo := by
  simp only [bitField, pow_zero, Nat.div_one]
  rw [Nat.pow_add, Nat.mod_mul_right_div_self]

theorem bitField_eq_div {v lo n : Nat} (fits : v < 2 ^ (lo + n)) : bitField v lo n = v / 2 ^ lo := by
  rw [bitField_eq_low, bitField, pow_zero, Nat.div_one, Nat.mod_eq_of_lt fits]

theorem bitField_zero_eq_mod (v n : Nat) : bitField v 0 n = v % 2 ^ n := by
  rw [bitField, pow_zero, Nat.div_one]

/-! The two parts of a command word (R72). -/

theorem two_pow_cmdW (c : Config) : 2 ^ c.cmdW = 4 * 2 ^ c.payloadW := by
  rw [Config.cmdW, Nat.pow_add]

/-- The writes' operands and the identifier each fit in the payload of a command word. -/
theorem addrW_add_lenW_le (c : Config) : c.addrW + c.lenW ≤ c.payloadW := le_max_left _ _

theorem hidW_le (c : Config) : c.hidW ≤ c.payloadW := le_max_right _ _

/-- Every word of CMD_W bits is an operation and a payload. -/
theorem exists_commandWord {c : Config} {w : Nat} (fits : w < 2 ^ c.cmdW) :
    ∃ op payload, op < 4 ∧ payload < 2 ^ c.payloadW ∧ w = commandWord c op payload := by
  rw [two_pow_cmdW] at fits
  exact ⟨w / 2 ^ c.payloadW, w % 2 ^ c.payloadW, Nat.div_lt_of_lt_mul (by rwa [Nat.mul_comm]),
    Nat.mod_lt _ (Nat.two_pow_pos _), (Nat.div_add_mod' ..).symm⟩

theorem commandWord_div {c : Config} {op payload : Nat} (fits : payload < 2 ^ c.payloadW) :
    commandWord c op payload / 2 ^ c.payloadW = op := by
  rw [commandWord, Nat.mul_comm, Nat.mul_add_div (Nat.two_pow_pos _), Nat.div_eq_of_lt fits, Nat.add_zero]

theorem commandWord_mod {c : Config} {op payload : Nat} (fits : payload < 2 ^ c.payloadW) :
    commandWord c op payload % 2 ^ c.payloadW = payload := by
  rw [commandWord, Nat.mul_comm, Nat.mul_add_mod, Nat.mod_eq_of_lt fits]

/-- A bound on a command word that is a multiple of two to P_W is a bound on its operation. -/
theorem mul_le_commandWord_iff {c : Config} {op payload k : Nat} (fits : payload < 2 ^ c.payloadW) :
    k * 2 ^ c.payloadW ≤ commandWord c op payload ↔ k ≤ op := by
  rw [← Nat.le_div_iff_mul_le (Nat.two_pow_pos _), commandWord_div fits]

/-- A field that lies in the payload is a field of the payload. -/
theorem bitField_commandWord (c : Config) (op payload : Nat) {lo n : Nat} (within : lo + n ≤ c.payloadW) :
    bitField (commandWord c op payload) lo n = bitField payload lo n := by
  rw [bitField_eq_low, bitField_eq_low payload, commandWord_low c op payload _ within, bitField_zero_eq_mod]

/-- The reserved bits above a field of `n` bits are all 0 exactly when the payload fits in the field (R72, R74). -/
theorem reservedBits_eq_zero_iff (c : Config) (op : Nat) {payload n : Nat} (fits : payload < 2 ^ c.payloadW)
    (within : n ≤ c.payloadW) :
    bitField (commandWord c op payload) n (c.payloadW - n) = 0 ↔ payload < 2 ^ n := by
  have upper : n + (c.payloadW - n) = c.payloadW := Nat.add_sub_cancel' within
  rw [bitField_commandWord c op payload upper.le, bitField_eq_div (by rwa [upper]),
    Nat.div_eq_zero_iff_lt (Nat.two_pow_pos n)]

theorem writeWellFormed_iff {c : Config} {addr len : Nat} :
    writeWellFormed c addr len = true ↔
      addr < 2 ^ c.addrW ∧ len < 2 ^ c.lenW ∧ addr + len ≤ 2 ^ c.addrW :=
  writeOk_iff c addr len

/-! What the decoder reads from a command word (R73). -/

/-- The instruction `write` with the operands packed in a payload, or the rejection of a reserved bit. -/
def unpackWrite (c : Config) (write : Nat → Nat → Instr) (payload : Nat) : Except DecodeError Instr :=
  if payload < 2 ^ (c.addrW + c.lenW) then .ok (write (payload / 2 ^ c.lenW) (payload % 2 ^ c.lenW))
  else .error .reservedBit

/-- The row of R73 that an operation and a payload select. -/
def unpackCommand (c : Config) (op payload : Nat) : Except DecodeError Instr :=
  match op with
  | 0 => unpackWrite c .frameWrite payload
  | 1 => unpackWrite c .rawWrite payload
  | 2 => if payload < 2 ^ c.hidW then .ok (.register payload) else .error .reservedBit
  | _ => .ok (.cmdReserved payload)

section
variable {c : Config}

/-! The fields of a command word. -/

theorem bitField_addr {op payload : Nat} (fits : payload < 2 ^ (c.addrW + c.lenW)) :
    bitField (commandWord c op payload) c.lenW c.addrW = payload / 2 ^ c.lenW := by
  rw [Nat.add_comm] at fits
  rw [bitField_commandWord c op payload (Nat.add_comm .. ▸ addrW_add_lenW_le c), bitField_eq_div fits]

theorem bitField_len {op payload : Nat} : bitField (commandWord c op payload) 0 c.lenW = payload % 2 ^ c.lenW :=
  commandWord_low c op payload _ (le_trans (Nat.le_add_left ..) (addrW_add_lenW_le c))

/-- A field from bit 0 that the payload fits in is the payload. -/
theorem bitField_whole {op payload n : Nat} (within : n ≤ c.payloadW) (fits : payload < 2 ^ n) :
    bitField (commandWord c op payload) 0 n = payload := by
  rw [commandWord_low c op payload n within, Nat.mod_eq_of_lt fits]

/-! Unpacking the operands. -/

theorem unpackWrite_of_fits {payload : Nat} (write : Nat → Nat → Instr) (fits : payload < 2 ^ (c.addrW + c.lenW)) :
    unpackWrite c write payload = .ok (write (payload / 2 ^ c.lenW) (payload % 2 ^ c.lenW)) :=
  if_pos fits

theorem unpackWrite_of_reserved {payload : Nat} (write : Nat → Nat → Instr)
    (reserved : 2 ^ (c.addrW + c.lenW) ≤ payload) : unpackWrite c write payload = .error .reservedBit :=
  if_neg (Nat.not_lt.mpr reserved)

/-- Unpacking takes apart what the encoder packs. -/
theorem unpackWrite_pack (write : Nat → Nat → Instr) {addr len : Nat} (addrFits : addr < 2 ^ c.addrW)
    (lenFits : len < 2 ^ c.lenW) : unpackWrite c write (addr * 2 ^ c.lenW + len) = .ok (write addr len) := by
  have quotient : (addr * 2 ^ c.lenW + len) / 2 ^ c.lenW = addr := by
    rw [Nat.mul_comm, Nat.mul_add_div (Nat.two_pow_pos _), Nat.div_eq_of_lt lenFits, Nat.add_zero]
  have remainder : (addr * 2 ^ c.lenW + len) % 2 ^ c.lenW = len := by
    rw [Nat.mul_comm, Nat.mul_add_mod, Nat.mod_eq_of_lt lenFits]
  have fits : addr * 2 ^ c.lenW + len < 2 ^ (c.addrW + c.lenW) := by
    rwa [Nat.pow_add, ← Nat.div_lt_iff_lt_mul (Nat.two_pow_pos _), quotient]
  rw [unpackWrite_of_fits write fits, quotient, remainder]

/-- What was unpacked packs to the payload again. -/
theorem unpackWrite_eq_ok {write : Nat → Nat → Instr} {payload : Nat} {i : Instr}
    (accepted : unpackWrite c write payload = .ok i) :
    ∃ addr len, i = write addr len ∧ payload = addr * 2 ^ c.lenW + len := by
  unfold unpackWrite at accepted
  split at accepted
  · exact ⟨_, _, (Except.ok.inj accepted).symm, (Nat.div_add_mod' ..).symm⟩
  · cases accepted

theorem decode_cmd_eq_tooWide {w : Nat} (wide : 2 ^ c.cmdW ≤ w) : decode c .cmd w = .error .tooWide :=
  if_pos wide

/-- The decoder reads the fields where the encoder puts them (R72). -/
theorem decode_commandWord {op payload : Nat} (isOp : op < 4) (fits : payload < 2 ^ c.payloadW) :
    decode c .cmd (commandWord c op payload) = unpackCommand c op payload := by
  have narrow : ¬ 2 ^ c.cmdW ≤ commandWord c op payload := Nat.not_le.mpr (commandWord_lt c op payload isOp fits)
  have writeBits := propext (reservedBits_eq_zero_iff c op fits (addrW_add_lenW_le c))
  have idBits := propext (reservedBits_eq_zero_iff c op fits (hidW_le c))
  simp only [decode, decodeCommand, if_neg narrow, commandWord_op c op payload isOp fits]
  match op with
  | 0 | 1 =>
    simp only [reduceIte, Nat.reduceEqDiff]
    exact ite_congr writeBits (fun h => by rw [bitField_addr h, bitField_len]) fun _ => rfl
  | 2 =>
    simp only [reduceIte, Nat.reduceEqDiff]
    exact ite_congr idBits (fun h => by rw [bitField_whole (hidW_le c) h]) fun _ => rfl
  | 3 =>
    simp only [reduceIte, Nat.reduceEqDiff]
    exact congrArg (Except.ok ∘ Instr.cmdReserved) (bitField_whole le_rfl fits)

end

/-- A command word that decodes is an operation and a payload that unpack to the instruction. -/
theorem decode_cmd_eq_ok {c : Config} {w : Nat} {i : Instr} (accepted : decode c .cmd w = .ok i) :
    ∃ op payload, op < 4 ∧ w = commandWord c op payload ∧ unpackCommand c op payload = .ok i := by
  by_cases fits : w < 2 ^ c.cmdW
  · obtain ⟨op, payload, isOp, inPayload, rfl⟩ := exists_commandWord fits
    exact ⟨op, payload, isOp, rfl, decode_commandWord isOp inPayload ▸ accepted⟩
  · rw [decode_cmd_eq_tooWide (Nat.not_lt.mp fits)] at accepted
    cases accepted

/-- The encoder packs what was unpacked. -/
theorem encode_of_unpackCommand {c : Config} {op payload : Nat} {i : Instr} (isOp : op < 4)
    (accepted : unpackCommand c op payload = .ok i) : encode c i = (.cmd, commandWord c op payload) := by
  match op with
  | 0 | 1 =>
    obtain ⟨addr, len, rfl, rfl⟩ := unpackWrite_eq_ok accepted
    rfl
  | 2 =>
    simp only [unpackCommand] at accepted
    split at accepted <;> cases accepted
    rfl
  | 3 =>
    cases accepted
    rfl

/-! One byte at a port: the classes of a byte (R61, R62, R136), and the word of a class. -/

/-- A byte is in neither reserved class: the test of the rows W_LIT, DEC_DATA_LIT and P_PLAIN. -/
theorem literal_iff {c : Config} {b : Byte} : (b != c.sync && b != c.escape) = true ↔ b ≠ c.sync ∧ b ≠ c.escape := by
  rw [Bool.and_eq_true, bne_iff_ne, bne_iff_ne]

theorem decodeByte_eq_ok {f : Byte → Instr} {w : Nat} {i : Instr} (accepted : decodeByte f w = .ok i) :
    ∃ b : Byte, w = b.toNat ∧ i = f b := by
  unfold decodeByte at accepted
  split at accepted
  case isTrue => cases accepted
  case isFalse narrow =>
    exact ⟨.ofNat 8 w, (Nat.mod_eq_of_lt (Nat.not_le.mp narrow)).symm, (Except.ok.inj accepted).symm⟩

/-- One test of a byte's class: if both rows have the byte's word, so does the row that the test selects. -/
theorem encode_class {c : Config} {src : Source} {b k : Byte} {row other : Instr}
    (same : encode c row = (src, k.toNat)) (differs : encode c other = (src, b.toNat)) :
    encode c (if b = k then row else other) = (src, b.toNat) := by
  split
  case isTrue h => rw [same, h]
  case isFalse => exact differs

theorem encode_decodeWire (c : Config) (b : Byte) : encode c (decodeWire c b) = (.wire, b.toNat) :=
  encode_class rfl (encode_class rfl rfl)

theorem encode_decodeTransition (c : Config) (st : DecState) (b : Byte) :
    encode c (decodeTransition c st b) = (.decoder st, b.toNat) := by
  cases st with
  | data => exact encode_class rfl (encode_class rfl rfl)
  | hunt | esc => exact encode_class rfl rfl

theorem encode_decodePayload (c : Config) (mode : TxMode) (b : Byte) :
    encode c (decodePayload c mode b) = (.pay mode, b.toNat) := by
  cases mode with
  | framed => exact encode_class rfl (encode_class rfl rfl)
  | raw => rfl

/-! The two event flags (R77). -/

theorem decode_evt_eq_ok {c : Config} {w : Nat} {i : Instr} (accepted : decode c .evt w = .ok i) :
    ∃ rx other, w = eventWord rx other ∧ i = decodeEvent rx other := by
  simp only [decode] at accepted
  split at accepted
  case isTrue => cases accepted
  case isFalse narrow =>
    refine ⟨w.testBit 1, w.testBit 0, ?_, (Except.ok.inj accepted).symm⟩
    have : w < 4 := Nat.not_le.mp narrow
    interval_cases w <;> rfl

theorem encode_decodeEvent (c : Config) (rx other : Bool) :
    encode c (decodeEvent rx other) = (.evt, eventWord rx other) := by
  cases rx <;> cases other <;> rfl

/-! The statements about words. -/

/-- Settles O2: each format's word is recovered from the class or the fields that the decoder read. -/
theorem encodeOfDecodeIsTheWord : Obligations.EncodeOfDecodeIsTheWord := by
  intro c src w i accepted
  cases src with
  | cmd =>
    obtain ⟨op, payload, isOp, rfl, unpacked⟩ := decode_cmd_eq_ok accepted
    exact encode_of_unpackCommand isOp unpacked
  | wire =>
    obtain ⟨b, rfl, rfl⟩ := decodeByte_eq_ok accepted
    exact encode_decodeWire c b
  | decoder st =>
    obtain ⟨b, rfl, rfl⟩ := decodeByte_eq_ok accepted
    exact encode_decodeTransition c st b
  | pay mode =>
    obtain ⟨b, rfl, rfl⟩ := decodeByte_eq_ok accepted
    exact encode_decodePayload c mode b
  | evt =>
    obtain ⟨rx, other, rfl, rfl⟩ := decode_evt_eq_ok accepted
    exact encode_decodeEvent c rx other

/-- Settles O4: a bound on the word bounds its operation, and an operation with a bound on the payload. -/
theorem reservedCommandWordsAreNoCommands : Obligations.ReservedCommandWordsAreNoCommands := by
  intro c w fits
  obtain ⟨op, payload, isOp, inPayload, rfl⟩ := exists_commandWord fits
  rw [decode_commandWord isOp inPayload]
  refine ⟨fun top => ?_, fun above below => ?_, fun below reserved => ?_⟩
  · have isTop : 3 ≤ op := (mul_le_commandWord_iff inPayload).mp top
    obtain rfl : op = 3 := by omega
    rw [commandWord, Nat.add_sub_cancel_left]
    rfl
  · have atLeast : 2 ≤ op := (mul_le_commandWord_iff inPayload).mp (le_trans (Nat.le_add_right ..) above)
    have notTop : ¬ 3 ≤ op := fun h => below.not_ge ((mul_le_commandWord_iff inPayload).mpr h)
    obtain rfl : op = 2 := by omega
    exact if_neg (Nat.not_lt.mpr (Nat.add_le_add_iff_left.mp above))
  · have isWrite : ¬ 2 ≤ op := fun h => below.not_ge ((mul_le_commandWord_iff inPayload).mpr h)
    rw [commandWord_mod inPayload] at reserved
    obtain rfl | rfl : op = 0 ∨ op = 1 := by omega
    · exact unpackWrite_of_reserved _ reserved
    · exact unpackWrite_of_reserved _ reserved

/-- Settles O1: a command word unpacks to the operands packed in it, and a byte or a pair of flags falls in the class
that the instruction names, the classes being distinct since SYNC is not ESCAPE (R3). -/
theorem decodeOfEncodeIsTheInstruction : Obligations.DecodeOfEncodeIsTheInstruction := by
  intro c i config wf
  have distinct : c.escape ≠ c.sync := Ne.symm (sync_ne_escape config)
  cases i with
  | frameWrite addr len | rawWrite addr len =>
    obtain ⟨addrFits, lenFits, -⟩ := writeWellFormed_iff.mp wf
    exact (decode_commandWord (by decide) (writePayload_lt c addr len addrFits lenFits)).trans
      (unpackWrite_pack _ addrFits lenFits)
  | register hid =>
    have fits : hid < 2 ^ c.hidW := of_decide_eq_true wf
    exact (decode_commandWord (by decide) (fits.trans_le (Nat.pow_le_pow_right two_pos (hidW_le c)))).trans
      (if_pos fits)
  | cmdReserved payload => cases wf
  | wSync | wEscape => simp [encode, decode, byte_decodes, decodeWire, distinct]
  | wLit b =>
    obtain ⟨notSync, notEscape⟩ := literal_iff.mp wf
    simp [encode, decode, byte_decodes, decodeWire, notSync, notEscape]
  | decHuntSync | decDataSync | decDataEscape | decEscSync =>
    simp [encode, decode, byte_decodes, decodeTransition, distinct]
  | decHuntOther b | decEscOther b =>
    have notSync : b ≠ c.sync := bne_iff_ne.mp wf
    simp [encode, decode, byte_decodes, decodeTransition, notSync]
  | decDataLit b =>
    obtain ⟨notSync, notEscape⟩ := literal_iff.mp wf
    simp [encode, decode, byte_decodes, decodeTransition, notSync, notEscape]
  | pSync | pEscape => simp [encode, decode, byte_decodes, decodePayload, distinct]
  | pPlain b =>
    obtain ⟨notSync, notEscape⟩ := literal_iff.mp wf
    simp [encode, decode, byte_decodes, decodePayload, notSync, notEscape]
  | pRaw b => exact byte_decodes _ b
  | irqRx other => exact eventWord_decodes c true other
  | irqForeign => exact eventWord_decodes c false true
  | irqNone => exact eventWord_decodes c false false

/-- Settles O3: the nine words, evaluated. -/
theorem tableWordsDecodeToTheirRows : Obligations.TableWordsDecodeToTheirRows :=
  ⟨rfl, rfl, rfl, rfl, rfl, rfl, rfl, rfl, rfl⟩

end Sys2Proof.Proofs
end

section
/-! SUPPORT. The wire format (R62 to R69) and the reserved operation selector (R74). -/

namespace Sys2Proof.Proofs

open Sys2Proof Sys2Proof.Machine

/-! The escaped form of a byte (R62, R68). -/

section
variable {c : Config} {b : Byte}

theorem escByte_of_reserved (reserved : isReserved c b = true) : escByte c b = [c.escape, b ^^^ xmask] :=
  if_pos reserved

theorem escByte_of_plain (plain : isReserved c b = false) : escByte c b = [b] :=
  if_neg (Bool.eq_false_iff.mp plain)

theorem plain_iff : isReserved c b = false ↔ b ≠ c.sync ∧ b ≠ c.escape := by
  rw [Bool.eq_false_iff, Ne, isReserved_iff, not_or]

theorem sync_reserved : isReserved c c.sync = true := (isReserved_iff c _).mpr (.inl rfl)

theorem escape_reserved : isReserved c c.escape = true := (isReserved_iff c _).mpr (.inr rfl)

/-- A pair whose operand is not SYNC decodes to its operand under the mask (R65). -/
theorem unescBytes_pair (config : configOk c = true) {x : Byte} (operand : x ≠ c.sync) (rest : List Byte) :
    unescBytes c (c.escape :: x :: rest) = (unescBytes c rest).map (fun t => (x ^^^ xmask) :: t) := by
  simp [unescBytes, Ne.symm (sync_ne_escape config), operand]

/-- The escaped form of a byte has no SYNC in it. -/
theorem sync_notMem_escByte (config : configOk c = true) : c.sync ∉ escByte c b := by
  cases reserved : isReserved c b with
  | true => simp [escByte_of_reserved reserved, sync_ne_escape config, Ne.symm (operand_ne_sync config reserved)]
  | false => simp [escByte_of_plain reserved, Ne.symm (plain_iff.mp reserved).1]

end

/-- Settles O8. The two pairs differ because the mask is its own inverse and the constants differ. -/
theorem escapePairsAreABijection : Obligations.EscapePairsAreABijection := by
  intro c config
  refine ⟨fun x rest operand => unescBytes_pair config operand rest, xor_xmask_twice, fun same => ?_,
    fun b rest reserved => ⟨escByte_of_reserved reserved, unescBytes_escByte config b rest⟩⟩
  rw [escByte_of_reserved sync_reserved, escByte_of_reserved escape_reserved] at same
  have operands : c.sync ^^^ xmask = c.escape ^^^ xmask := by simpa using same
  apply sync_ne_escape config
  rw [← xor_xmask_twice c.sync, operands, xor_xmask_twice]

/-! Frames (R63, R65, R66, R69). -/

/-- Unescaping undoes escaping. -/
theorem unescBytes_escBytes {c : Config} (config : configOk c = true) (payload : List Byte) :
    unescBytes c (escBytes c payload) = some payload := by
  induction payload with
  | nil => rfl
  | cons b rest ih => rw [escBytes, unescBytes_escByte config, ih, Option.map_some]

/-- A frame decodes to what is between its delimiters. -/
theorem frameDecode_delimited (c : Config) (interior : List Byte) :
    frameDecode c (c.sync :: (interior ++ [c.sync])) = unescBytes c interior := by
  simp [frameDecode]

/-- Settles O5: between the delimiters, unescaping undoes escaping. -/
theorem frameRoundTrip : Obligations.FrameRoundTrip := by
  intro c payload config
  exact (frameDecode_delimited c _).trans (unescBytes_escBytes config payload)

/-- Escaping adds one byte for each reserved byte. -/
theorem length_escBytes (c : Config) (payload : List Byte) :
    (escBytes c payload).length = payload.length + reservedCount c payload := by
  induction payload with
  | nil => rfl
  | cons b rest ih =>
    simp only [escBytes, List.length_append, length_escByte, ih, reservedCount, List.length_cons, List.countP_cons]
    split <;> omega

/-- Settles O6: the two delimiters are the other two bytes. -/
theorem frameLengthLaw : Obligations.FrameLengthLaw := by
  intro c payload
  simp only [frameEncode, List.length_cons, List.length_append, List.length_nil, length_escBytes]
  omega

/-! SYNC and ESCAPE in a frame (R67). -/

theorem sync_notMem_escBytes {c : Config} (config : configOk c = true) (payload : List Byte) :
    c.sync ∉ escBytes c payload := by
  induction payload with
  | nil => exact List.not_mem_nil
  | cons b rest ih =>
    rw [escBytes, List.mem_append, not_or]
    exact ⟨sync_notMem_escByte config, ih⟩

/-- The bytes begin with the operand of an escape pair that the encoder produces. -/
def StartsWithOperand (c : Config) (bytes : List Byte) : Prop :=
  ∃ rest, bytes = (c.sync ^^^ xmask) :: rest ∨ bytes = (c.escape ^^^ xmask) :: rest

/-- Every ESCAPE among the bytes is followed by the operand of a pair. -/
def EscapesArePrefixes (c : Config) (bytes : List Byte) : Prop :=
  ∀ before after, bytes = before ++ c.escape :: after → StartsWithOperand c after

section
variable {c : Config} {b : Byte} {bytes : List Byte}

theorem startsWithOperand_of_reserved (reserved : isReserved c b = true) (rest : List Byte) :
    StartsWithOperand c ((b ^^^ xmask) :: rest) := by
  rcases (isReserved_iff c b).mp reserved with rfl | rfl
  · exact ⟨rest, .inl rfl⟩
  · exact ⟨rest, .inr rfl⟩

/-- The operand of a pair is no ESCAPE itself. -/
theorem operand_ne_escape (config : configOk c = true) (reserved : isReserved c b = true) :
    b ^^^ xmask ≠ c.escape := by
  rcases (isReserved_iff c b).mp reserved with rfl | rfl
  · exact Ne.symm (escape_ne_sync_xor config)
  · exact xor_xmask_ne _

theorem escapesArePrefixes_nil : EscapesArePrefixes c [] := fun before after cut => by simp at cut

/-- A byte may be put in front if it is no ESCAPE or an operand follows. -/
theorem escapesArePrefixes_cons (tail : EscapesArePrefixes c bytes) (head : b = c.escape → StartsWithOperand c bytes) :
    EscapesArePrefixes c (b :: bytes) := by
  intro before after cut
  cases before with
  | nil =>
    obtain ⟨isEscape, rfl⟩ := List.cons.inj cut
    exact head isEscape
  | cons _ before => exact tail before after (List.cons.inj cut).2

theorem escapesArePrefixes_cons_of_ne (tail : EscapesArePrefixes c bytes) (notEscape : b ≠ c.escape) :
    EscapesArePrefixes c (b :: bytes) :=
  escapesArePrefixes_cons tail (absurd · notEscape)

theorem escapesArePrefixes_escByte (config : configOk c = true) (tail : EscapesArePrefixes c bytes) :
    EscapesArePrefixes c (escByte c b ++ bytes) := by
  cases reserved : isReserved c b with
  | true =>
    rw [escByte_of_reserved reserved]
    exact escapesArePrefixes_cons (escapesArePrefixes_cons_of_ne tail (operand_ne_escape config reserved))
      fun _ => startsWithOperand_of_reserved reserved bytes
  | false =>
    rw [escByte_of_plain reserved]
    exact escapesArePrefixes_cons_of_ne tail (plain_iff.mp reserved).2

theorem escapesArePrefixes_escBytes (config : configOk c = true) (payload : List Byte)
    (tail : EscapesArePrefixes c bytes) : EscapesArePrefixes c (escBytes c payload ++ bytes) := by
  induction payload with
  | nil => exact tail
  | cons b rest ih =>
    rw [escBytes, List.append_assoc]
    exact escapesArePrefixes_escByte config ih

theorem escapesArePrefixes_frameEncode (config : configOk c = true) (payload : List Byte) :
    EscapesArePrefixes c (frameEncode c payload) := by
  have delimiter := sync_ne_escape config
  have closing : EscapesArePrefixes c [c.sync] := escapesArePrefixes_cons_of_ne escapesArePrefixes_nil delimiter
  exact escapesArePrefixes_cons_of_ne (escapesArePrefixes_escBytes config payload closing) delimiter

end

/-- Settles O7: the interior is the escaped payload. -/
theorem delimiterExclusivity : Obligations.DelimiterExclusivity := fun c payload config =>
  ⟨⟨escBytes c payload, rfl, sync_notMem_escBytes config payload⟩, escapesArePrefixes_frameEncode config payload⟩

/-! The reserved operation selector. -/

/-- Settles O14: the meaning of CMD_RESERVED looks neither at the state nor at the payload. -/
theorem reservedOperationIsRefused : Obligations.ReservedOperationIsRefused := fun _ _ => rfl

end Sys2Proof.Proofs
end

section
/-! SUPPORT. The TX engine one step at a time: acceptance (R85), the delimiters (R86, R90), the payload bytes (R87 to
R89), and the environment's flags (R98, R173, R177). -/

namespace Sys2Proof.Proofs

open Sys2Proof Sys2Proof.Machine

/-! Acceptance. -/

/-- A host that may present a framed write has its operands checked, and nothing else (R47, R85). -/
theorem exec_frameWrite_of_ready {s : State} (ready : s.cmdReady = true) (addr len : Nat) :
    exec (.frameWrite addr len) s =
      if writeOk s.cfg addr len then .next (s.startWrite .framed addr len .tOpen) else .refused .addressRange :=
  if_pos ready

/-- Settles O9: the host is ready and the operands pass their check. -/
theorem frameWriteIsAccepted : Obligations.FrameWriteIsAccepted := by
  intro s addr len idle outside awake addrFits lenFits inRange
  have ready : s.cmdReady = true := (cmdReady_iff s).mpr ⟨idle, outside, awake⟩
  have ok : writeOk s.cfg addr len = true := (writeOk_iff s.cfg addr len).mpr ⟨addrFits, lenFits, inRange⟩
  rw [exec_frameWrite_of_ready ready, if_pos ok]
  rfl

/-- Settles O12: each of the three conditions makes cmd_ready 0, which every command tests first. -/
theorem commandsWaitWhileNotReady : Obligations.CommandsWaitWhileNotReady := by
  intro s a l waits
  have notReady : ¬ s.cmdReady = true := by
    rw [cmdReady_iff]
    rintro ⟨idle, outside, awake⟩
    rcases waits with busy | inside | asleep
    · exact busy idle
    · exact inside outside
    · simp [awake] at asleep
  exact ⟨if_neg notReady, if_neg notReady, if_neg notReady⟩

/-! The steps that read no word. -/

section
variable {s : State}

theorem txEnabled_of_awake (outside : s.dphase = .dIdle) (awake : s.lpm = false) (ready : s.txrdy = true) :
    s.txEnabled = true :=
  (txEnabled_iff s).mpr ⟨⟨outside, awake⟩, ready⟩

/-- The guard of a body step, from the state of the buffer (R41, R87, R88). -/
theorem bodyReady_of_readable {mode : TxMode} {b : Byte} (inBody : s.txstate = .tBody) (inMode : s.txmode = mode)
    (enabled : s.txEnabled = true) (isReadable : readable s.cfg s.payloadAddr = true)
    (byte : readByte s.mem s.payloadAddr = b) : s.bodyReady mode b = true :=
  (bodyReady_iff s mode b).mpr ⟨inBody, inMode, enabled, (payloadByte_eq_some s b).mpr ⟨isReadable, byte⟩⟩

end

/-- Settles O15: T_OPEN reads no word, and its step is the delimiter's. -/
theorem openingDelimiterIsWritten : Obligations.OpeningDelimiterIsWritten := by
  intro s inOpen outside awake ready
  have enabled := txEnabled_of_awake outside awake ready
  rw [perform_mainline_wordless s (by simp [inOpen]) (by simp [inOpen])]
  simp [mainlineStep, openFrame, inOpen, enabled, State.txWrite]

/-- Settles O18: T_ESC2 reads no word, and its step takes the byte from TXCUR. -/
theorem escapeOperandIsWritten : Obligations.EscapeOperandIsWritten := by
  intro s inEsc2 outside awake ready
  have enabled := txEnabled_of_awake outside awake ready
  rw [perform_mainline_wordless s (by simp [inEsc2]) (by simp [inEsc2])]
  simp [mainlineStep, emitOperand, inEsc2, enabled, State.txWrite, State.advanceFramed, xmask]

/-- Settles O19: T_CLOSE reads no word, and its step ends the write. -/
theorem closingDelimiterCompletes : Obligations.ClosingDelimiterCompletes := by
  intro s inClose outside awake ready
  have enabled := txEnabled_of_awake outside awake ready
  rw [perform_mainline_wordless s (by simp [inClose]) (by simp [inClose])]
  simp [mainlineStep, closeFrame, inClose, enabled, State.txWrite, State.cmdDone]

/-! The payload bytes. -/

/-- Settles O16: the byte at the payload address meets the guard of P_PLAIN. -/
theorem plainByteIsEmittedUnchanged : Obligations.PlainByteIsEmittedUnchanged := by
  intro s b inBody framed outside awake ready isReadable byte notSync notEscape
  have bodyReady : s.bodyReady .framed b = true :=
    bodyReady_of_readable inBody framed (txEnabled_of_awake outside awake ready) isReadable byte
  have plain : isReserved s.cfg b = false := plain_iff.mpr ⟨notSync, notEscape⟩
  simp [exec, execPPlain, bodyReady, plain, State.readPayload, State.txWrite, State.advanceFramed,
    State.payloadAddr]

/-- Settles O17: the byte at the payload address meets the guard of the row of its own class. -/
theorem reservedByteEmitsEscapeFirst : Obligations.ReservedByteEmitsEscapeFirst := by
  intro s b inBody framed outside awake ready isReadable byte
  have bodyReady : s.bodyReady .framed b = true :=
    bodyReady_of_readable inBody framed (txEnabled_of_awake outside awake ready) isReadable byte
  constructor <;> rintro rfl
  · simp [exec, execPSync, bodyReady, State.emitEscape, State.readPayload, State.txWrite, State.payloadAddr]
  · simp [exec, execPEscape, bodyReady, State.emitEscape, State.readPayload, State.txWrite, State.payloadAddr]

/-! The environment. -/

theorem perform_txAck (s : State) : perform .txAck s = .next { s with txrdy := true } := rfl

/-- Settles O48: these moves read no word, and the guard of SLEEP is that of the step. -/
theorem environmentFlagSteps : Obligations.EnvironmentFlagSteps := by
  intro s b
  refine ⟨perform_txAck s, rfl, ?_⟩
  simp only [perform, fetch, act, enterSleep, Bool.and_eq_true, mlRun_iff, beq_iff_eq, and_assoc]

end Sys2Proof.Proofs
end

section
/-! SUPPORT. Which moves touch the transmitter, and how far (R51, R91, R96). -/

namespace Sys2Proof.Proofs

open Sys2Proof Sys2Proof.Machine

/-- A move that appends to TXLOG appends one byte, from TXRDY = 1 to TXRDY = 0 (R51, R91). -/
theorem move_txlog {m : Move} {s t : State} (moved : MoveCase m s t) :
    t.txlog = s.txlog ∨ (s.txrdy = true ∧ t.txrdy = false ∧ ∃ b, t.txlog = s.txlog ++ [b]) := by
  cases moved with
  | plain _ b ready _ | escape _ b ready _ | raw _ b ready =>
    exact .inr ⟨(txrdy_of_bodyReady ready).2, rfl, _, rfl⟩
  | opening _ _ enabled | operand _ _ enabled | closing _ _ enabled =>
    exact .inr ⟨((txEnabled_iff s).mp enabled).2, rfl, _, rfl⟩
  | leave => exact .inl (leaveInterrupt_txlog s)
  | _ => exact .inl rfl

/-- Settles O22: taking the move from the queue touches neither TXLOG nor TXRDY. -/
theorem transmitLogGrowsOneReadyByteAtATime : Obligations.TransmitLogGrowsOneReadyByteAtATime := by
  intro s t stepped
  obtain ⟨-, moved⟩ := step_cases stepped
  simpa using move_txlog moved

/-- The TX engine and TXLOG are the same in both states, under the same parameters. -/
structure SameTransmitter (s t : State) : Prop where
  cfg : t.cfg = s.cfg
  txstate : t.txstate = s.txstate
  txmode : t.txmode = s.txmode
  txbase : t.txbase = s.txbase
  txlen : t.txlen = s.txlen
  txidx : t.txidx = s.txidx
  txcur : t.txcur = s.txcur
  txlog : t.txlog = s.txlog

theorem sameTransmitter_refl (s : State) : SameTransmitter s s := ⟨rfl, rfl, rfl, rfl, rfl, rfl, rfl, rfl⟩

/-- Only main-line and a reset touch the transmitter. -/
theorem move_sameTransmitter {m : Move} {s t : State} (other : m ≠ .mainline) (live : ∀ d, m ≠ .rst d)
    (moved : MoveCase m s t) : SameTransmitter s t := by
  cases moved with
  | acceptFrame | acceptEmptyRaw | acceptRaw | acceptRegister => exact absurd rfl other
  | plain | escape | raw | opening | operand | closing => exact absurd rfl other
  | reset _ d _ => exact absurd rfl (live d)
  | leave =>
    unfold State.leaveInterrupt
    split <;> exact { sameTransmitter_refl s with }
  | _ => exact { sameTransmitter_refl s with }

/-- `perform_cases` for the interrupt agent, whose moves need no distinct constants. -/
theorem perform_interrupt_cases {s t : State} (h : perform .interrupt s = .next t) : MoveCase .interrupt s t := by
  rw [perform_interrupt] at h
  split at h
  case isTrue inIdent =>
    cases h
    split
    case isTrue rx => exact .read s inIdent rx
    case isFalse rx => exact .ignore s inIdent (by simpa using rx)
  case isFalse =>
    split at h
    case isTrue calling => cases h; exact .decoder s calling.1 calling.2
    case isFalse =>
      unfold interruptStep at h
      split at h
      case h_1 idle =>
        split at h
        case isTrue pending => cases h; exact .enter s idle pending
        case isFalse => cases h; exact .wait _ s
      case h_2 => cases h; exact .wait _ s
      case h_3 inCall =>
        split at h
        case isTrue slot => cases h; exact .default s inCall slot
        case isFalse => split at h <;> cases h; exact .wait _ s
      case h_4 inExit => cases h; exact .leave s inExit

/-- `perform_cases` for the answer of an external handler. -/
theorem perform_cbDone_cases {s t : State} {a : HandlerAnswer} (h : perform (.cbDone a) s = .next t) :
    MoveCase (.cbDone a) s t := by
  simp only [perform, fetch, act] at h
  split at h
  case isTrue ok =>
    cases h
    unfold answerCall State.cbCall
    by_cases calling : s.dphase = .dCall ∧ isExternal s.cfg s.cbslot = true
    · simp only [if_pos calling, Option.isSome_some, if_true]
      exact .answer s a calling.1 calling.2 ok
    · simp only [if_neg calling, Option.isSome_none, Bool.false_eq_true, if_false]
      exact .wait _ s
  case isFalse => cases h

/-- Settles O23: a move of the dispatch is neither main-line's nor a reset, and no other touches the transmitter or
the slot. -/
theorem dispatchLeavesTheTransmitterAlone : Obligations.DispatchLeavesTheTransmitterAlone := by
  intro s t a performed
  obtain ⟨m, other, live, moved⟩ : ∃ m, m ≠ .mainline ∧ (∀ d, m ≠ .rst d) ∧ MoveCase m s t := by
    rcases performed with h | h
    · exact ⟨.interrupt, nofun, nofun, perform_interrupt_cases h⟩
    · exact ⟨.cbDone a, nofun, nofun, perform_cbDone_cases h⟩
  have same := move_sameTransmitter other live moved
  have slot : t.cbslot = s.cbslot := (move_cbslot live moved).resolve_right fun h => other h.1
  exact ⟨same.txstate, same.txmode, same.txbase, same.txlen, same.txidx, same.txcur, same.txlog, slot⟩

end Sys2Proof.Proofs
end

section
/-! SUPPORT. A write operation as a whole (R93, R209): what it still has to read and to emit, and that every step taken
while it is in progress conserves the log together with what is still to come. -/

namespace Sys2Proof.Proofs

open Sys2Proof Sys2Proof.Machine

/-- How many bytes the write in progress has still to read from the buffer. -/
def unread (s : State) : Nat :=
  match s.txstate with
  | .tIdle => 0
  | .tOpen => s.txlen
  | .tBody => s.txlen - s.txidx
  | .tEsc2 => s.txlen - s.txidx - 1
  | .tClose => 0

/-- The bytes in their places now: the end of the buffer. -/
def unreadBytes (s : State) : List Byte := bufferBytes s.mem (s.txbase + (s.txlen - unread s)) (unread s)

/-- What the write in progress still has to emit, if the bytes that it has still to read turn out to be `payload`. -/
def pending (s : State) (payload : List Byte) : List Byte :=
  match s.txstate with
  | .tIdle => []
  | .tOpen => frameEncode s.cfg payload
  | .tBody =>
    match s.txmode with
    | .framed => escBytes s.cfg payload ++ [s.cfg.sync]
    | .raw => payload
  | .tEsc2 => (s.txcur ^^^ xmask) :: (escBytes s.cfg payload ++ [s.cfg.sync])
  | .tClose => [s.cfg.sync]

theorem unread_of_body {s : State} (inBody : s.txstate = .tBody) : unread s = s.txlen - s.txidx := by
  simp only [unread, inBody]

theorem unread_of_esc2 {s : State} (inEsc2 : s.txstate = .tEsc2) : unread s = s.txlen - s.txidx - 1 := by
  simp only [unread, inEsc2]

theorem unread_le_txlen (s : State) : unread s ≤ s.txlen := by
  unfold unread
  split <;> omega

/-- If the buffer does not change, the bytes read are those there now. -/
theorem remaining_eq_pending {s : State} (hi : s.Inv) : s.remaining = pending s (unreadBytes s) := by
  unfold State.remaining pending unreadBytes unread
  cases at' : s.txstate with
  | tIdle | tClose => rfl
  | tOpen => simp
  | tBody =>
    have left := hi.body at'
    have place : s.txbase + (s.txlen - (s.txlen - s.txidx)) = s.payloadAddr := by
      rw [State.payloadAddr]
      omega
    cases s.txmode <;> simp only [place]
  | tEsc2 =>
    obtain ⟨-, left, -⟩ := hi.pair at'
    have place : s.txbase + (s.txlen - (s.txlen - s.txidx - 1)) = s.payloadAddr + 1 := by
      rw [State.payloadAddr]
      omega
    simp only [place]

/-- A buffer in two parts. -/
theorem bufferBytes_add (m : Memory) (a j k : Nat) :
    bufferBytes m a (j + k) = bufferBytes m a j ++ bufferBytes m (a + j) k := by
  induction j generalizing a with
  | zero => simp [bufferBytes]
  | succ j ih => rw [Nat.succ_add, bufferBytes, ih (a + 1), bufferBytes, Nat.succ_add_eq_add_succ]; rfl

/-- A step of the write operation, or of anything interleaved with it, in which the bytes `read` were read. -/
structure Progress (s t : State) (read : List Byte) : Prop where
  cfg : t.cfg = s.cfg
  mode : t.txmode = s.txmode
  base : t.txbase = s.txbase
  len : t.txlen = s.txlen
  count : unread s = read.length + unread t
  source : read = bufferBytes s.mem (s.txbase + (s.txlen - unread s)) read.length
  conserved : ∀ later, later.length = unread t → s.txlog ++ pending s (read ++ later) = t.txlog ++ pending t later

section
variable {s t : State}

theorem progress_of_sameTransmitter (same : SameTransmitter s t) : Progress s t [] where
  cfg := same.cfg
  mode := same.txmode
  base := same.txbase
  len := same.txlen
  count := by simp [unread, same.txstate, same.txlen, same.txidx]
  source := rfl
  conserved later _ := by simp [pending, same.txstate, same.txmode, same.txcur, same.cfg, same.txlog]

/-! After a payload byte has been emitted. -/

theorem unread_advanceFramed (s : State) : unread s.advanceFramed = s.txlen - s.txidx - 1 := by
  by_cases last : s.txidx + 1 = s.txlen
  · simp only [unread, State.advanceFramed, if_pos last]
    omega
  · simp only [unread, State.advanceFramed, if_neg last]
    omega

/-- T_CLOSE after the last byte emits what T_BODY would with no payload to come. -/
theorem pending_advanceFramed (framed : s.txmode = .framed) {later : List Byte}
    (fits : later.length = unread s.advanceFramed) :
    pending s.advanceFramed later = escBytes s.cfg later ++ [s.cfg.sync] := by
  rw [unread_advanceFramed] at fits
  by_cases last : s.txidx + 1 = s.txlen
  · obtain rfl : later = [] := List.length_eq_zero_iff.mp (by omega)
    simp [pending, State.advanceFramed, last, escBytes]
  · simp [pending, State.advanceFramed, last, framed]

theorem unread_advanceRaw (s : State) : unread s.advanceRaw = s.txlen - s.txidx - 1 := by
  by_cases last : s.txidx + 1 = s.txlen
  · simp only [unread, State.advanceRaw, if_pos last]
    omega
  · simp only [unread, State.advanceRaw, if_neg last]
    omega

theorem pending_advanceRaw (raw : s.txmode = .raw) {later : List Byte}
    (fits : later.length = unread s.advanceRaw) : pending s.advanceRaw later = later := by
  rw [unread_advanceRaw] at fits
  by_cases last : s.txidx + 1 = s.txlen
  · obtain rfl : later = [] := List.length_eq_zero_iff.mp (by omega)
    simp [pending, State.advanceRaw, last]
  · simp [pending, State.advanceRaw, last, raw]

/-! The steps of the TX engine. -/

/-- The opening delimiter: a payload of length 0 leaves the closing delimiter only (R86). -/
theorem progress_opening (hi : s.Inv) (inOpen : s.txstate = .tOpen) :
    Progress s { s.txWrite s.cfg.sync with txstate := if s.txlen = 0 then .tClose else .tBody } [] := by
  obtain ⟨framed, start⟩ := hi.opening inOpen
  by_cases empty : s.txlen = 0
  · refine ⟨rfl, rfl, rfl, rfl, by simp [unread, inOpen, empty], rfl, fun later fits => ?_⟩
    obtain rfl : later = [] := by simpa [unread, empty] using fits
    simp [pending, inOpen, empty, frameEncode, escBytes]
  · refine ⟨rfl, rfl, rfl, rfl, by simp [unread, inOpen, empty, start], rfl, fun later _ => ?_⟩
    simp [pending, inOpen, empty, framed, frameEncode]

/-- The byte read in T_BODY is the first of those unread. -/
theorem source_of_payloadByte (hi : s.Inv) (inBody : s.txstate = .tBody) {b : Byte} (byte : s.payloadByte = some b) :
    [b] = bufferBytes s.mem (s.txbase + (s.txlen - unread s)) [b].length := by
  have left := hi.body inBody
  have place : s.txbase + (s.txlen - unread s) = s.payloadAddr := by
    rw [unread_of_body inBody, State.payloadAddr]
    omega
  obtain ⟨-, rfl⟩ := (payloadByte_eq_some s b).mp byte
  rw [place]
  rfl

/-- A plain byte (R87). -/
theorem progress_plain (hi : s.Inv) {b : Byte} (ready : s.bodyReady .framed b = true)
    (plain : isReserved s.cfg b = false) : Progress s (s.readPayload.txWrite b).advanceFramed [b] := by
  obtain ⟨inBody, framed, -, byte⟩ := (bodyReady_iff s .framed b).mp ready
  have left := hi.body inBody
  refine ⟨rfl, rfl, rfl, rfl, ?_, source_of_payloadByte hi inBody byte, fun later fits => ?_⟩
  · rw [unread_of_body inBody, unread_advanceFramed, List.length_singleton, txWrite_txlen,
      txWrite_txidx, readPayload_txlen, readPayload_txidx]
    omega
  · rw [pending_advanceFramed (s := s.readPayload.txWrite b) framed fits]
    simp [pending, inBody, framed, escBytes, escByte_of_plain plain, State.advanceFramed]

/-- A reserved byte: its operand is still to come (R88). -/
theorem progress_escape (hi : s.Inv) {b : Byte} (ready : s.bodyReady .framed b = true)
    (reserved : isReserved s.cfg b = true) : Progress s (s.emitEscape b) [b] := by
  obtain ⟨inBody, framed, -, byte⟩ := (bodyReady_iff s .framed b).mp ready
  have left := hi.body inBody
  refine ⟨rfl, rfl, rfl, rfl, ?_, source_of_payloadByte hi inBody byte, fun later _ => ?_⟩
  · have after : unread (s.emitEscape b) = s.txlen - s.txidx - 1 := rfl
    rw [unread_of_body inBody, after, List.length_singleton]
    omega
  · simp [pending, inBody, framed, escBytes, escByte_of_reserved reserved, State.emitEscape]

/-- The operand of a pair (R89). -/
theorem progress_operand (hi : s.Inv) (inEsc2 : s.txstate = .tEsc2) :
    Progress s (s.txWrite (s.txcur ^^^ xmask)).advanceFramed [] := by
  obtain ⟨framed, -, -⟩ := hi.pair inEsc2
  refine ⟨rfl, rfl, rfl, rfl, ?_, rfl, fun later fits => ?_⟩
  · rw [unread_of_esc2 inEsc2, unread_advanceFramed, List.length_nil, Nat.zero_add, txWrite_txlen, txWrite_txidx]
  · rw [pending_advanceFramed (s := s.txWrite (s.txcur ^^^ xmask)) framed fits]
    simp [pending, inEsc2, State.advanceFramed]

/-- The closing delimiter (R90). -/
theorem progress_closing (inClose : s.txstate = .tClose) :
    Progress s ({ s.txWrite s.cfg.sync with txstate := .tIdle }).cmdDone [] where
  cfg := rfl
  mode := rfl
  base := rfl
  len := rfl
  count := by simp [unread, inClose, State.cmdDone]
  source := rfl
  conserved later _ := by simp [pending, inClose, State.cmdDone]

/-- A raw byte (R101). -/
theorem progress_raw (hi : s.Inv) {b : Byte} (ready : s.bodyReady .raw b = true) :
    Progress s (s.readPayload.txWrite b).advanceRaw [b] := by
  obtain ⟨inBody, raw, -, byte⟩ := (bodyReady_iff s .raw b).mp ready
  have left := hi.body inBody
  refine ⟨rfl, rfl, rfl, rfl, ?_, source_of_payloadByte hi inBody byte, fun later fits => ?_⟩
  · rw [unread_of_body inBody, unread_advanceRaw, List.length_singleton, txWrite_txlen,
      txWrite_txidx, readPayload_txlen, readPayload_txidx]
    omega
  · rw [pending_advanceRaw (s := s.readPayload.txWrite b) raw fits]
    simp [pending, inBody, raw, State.advanceRaw]

end

/-- While a write is in progress no command is accepted, so what a move does to the write is one of the engine's own
steps, or nothing. -/
theorem move_progress {m : Move} {s t : State} (hi : s.Inv) (busy : s.txstate ≠ .tIdle) (live : ∀ d, m ≠ .rst d)
    (moved : MoveCase m s t) : ∃ read, Progress s t read := by
  by_cases other : m = .mainline
  case neg => exact ⟨[], progress_of_sameTransmitter (move_sameTransmitter other live moved)⟩
  case pos =>
    cases moved with
    | acceptFrame _ _ _ _ ready | acceptEmptyRaw _ _ _ ready | acceptRaw _ _ _ _ ready
    | acceptRegister _ _ _ ready => exact absurd ((cmdReady_iff s).mp ready).1 busy
    | plain _ b ready plain => exact ⟨[b], progress_plain hi ready plain⟩
    | escape _ b ready reserved => exact ⟨[b], progress_escape hi ready reserved⟩
    | raw _ b ready => exact ⟨[b], progress_raw hi ready⟩
    | opening _ inOpen _ => exact ⟨[], progress_opening hi inOpen⟩
    | operand _ inEsc2 _ => exact ⟨[], progress_operand hi inEsc2⟩
    | closing _ inClose _ => exact ⟨[], progress_closing inClose⟩
    | wait => exact ⟨[], progress_of_sameTransmitter (sameTransmitter_refl s)⟩
    | _ => cases other

/-- Taking the move from the queue is no progress of the write. -/
theorem step_progress {s t : State} (hi : s.Inv) (busy : s.txstate ≠ .tIdle) (live : s.noReset)
    (stepped : step s = .next t) : ∃ read, Progress s t read := by
  obtain ⟨-, moved⟩ := step_cases stepped
  obtain ⟨read, p⟩ := move_progress (inv_beginStep hi) (by simpa using busy) live moved
  refine ⟨read, ?_⟩
  unfold beginStep at p
  split at p <;> exact { p with }

/-- The bytes read now and those unread afterwards are those unread before, if the step leaves the buffer alone. -/
theorem unreadBytes_of_progress {s t : State} {read : List Byte} (p : Progress s t read) (kept : bufferKept s t) :
    unreadBytes s = read ++ unreadBytes t := by
  have count := p.count
  have within := unread_le_txlen s
  have place : s.txbase + (s.txlen - unread s) + read.length = s.txbase + (s.txlen - unread t) := by omega
  have later : bufferBytes t.mem (s.txbase + (s.txlen - unread t)) (unread t) =
      bufferBytes s.mem (s.txbase + (s.txlen - unread t)) (unread t) :=
    bufferBytes_congr _ _ _ _ fun a lower upper => kept a (by omega) (by omega)
  calc unreadBytes s
      = bufferBytes s.mem (s.txbase + (s.txlen - unread s)) (read.length + unread t) := by rw [unreadBytes, count]
    _ = read ++ bufferBytes s.mem (s.txbase + (s.txlen - unread t)) (unread t) := by
        rw [bufferBytes_add, place, ← p.source]
    _ = read ++ unreadBytes t := by rw [← later, unreadBytes, p.base, p.len]

/-- What a write in progress emits until it is over: what was still to come, for some bytes of the buffer's length,
and for those in the buffer at the start if no step writes there. -/
theorem writeRun_emits {keep : Bool} {s u : State} (run : WriteRun keep s u) (hi : s.Inv) (idle : u.txstate = .tIdle) :
    ∃ payload, payload.length = unread s ∧ u.txlog = s.txlog ++ pending s payload ∧
      (keep = true → payload = unreadBytes s) := by
  induction run with
  | done s =>
    have nothing : unread s = 0 := by simp only [unread, idle]
    exact ⟨[], nothing.symm, by simp [pending, idle], fun _ => by rw [unreadBytes, nothing, bufferBytes]⟩
  | @step s t _ busy live next kept _ ih =>
    obtain ⟨read, p⟩ := step_progress hi busy live next
    obtain ⟨later, fits, log, same⟩ := ih (everyStepKeepsTheInvariant s t hi next) idle
    refine ⟨read ++ later, ?_, ?_, fun keep => ?_⟩
    · rw [List.length_append, fits, p.count]
    · rw [log, p.conserved later fits]
    · rw [unreadBytes_of_progress p (kept keep), same keep]

/-- The whole of a framed write, from its acceptance: everything is still to come. -/
theorem framedWrite_emits {keep : Bool} {s t u : State} {addr len : Nat} (hi : s.Inv)
    (accepted : exec (.frameWrite addr len) s = .next t) (ready : s.cmdReady = true) (run : WriteRun keep t u)
    (idle : u.txstate = .tIdle) :
    ∃ payload, payload.length = len ∧ u.txlog = s.txlog ++ frameEncode s.cfg payload ∧
      (keep = true → payload = bufferBytes s.mem addr len) := by
  rw [exec_frameWrite_of_ready ready] at accepted
  split at accepted
  case isTrue ok =>
    cases accepted
    obtain ⟨payload, fits, log, same⟩ := writeRun_emits run (inv_startWrite hi ready ok (.inr (.inl ⟨rfl, rfl⟩))) idle
    exact ⟨payload, fits, log, fun keep => by simpa [unreadBytes, unread] using same keep⟩
  case isFalse => cases accepted

/-- Settles O24: no step writes the buffer, so the payload is its content at acceptance. -/
theorem framedWriteEmitsTheFrame : Obligations.FramedWriteEmitsTheFrame := by
  intro s t u addr len hi accepted ready run idle
  obtain ⟨payload, -, log, same⟩ := framedWrite_emits hi accepted ready run idle
  rw [log, same rfl]

/-- Settles O25: the payload is made of the bytes as they were read. -/
theorem framedWriteAlwaysEmitsAFrame : Obligations.FramedWriteAlwaysEmitsAFrame := by
  intro s t u addr len hi accepted ready run idle
  obtain ⟨payload, length, log, -⟩ := framedWrite_emits hi accepted ready run idle
  exact ⟨payload, length, log⟩

end Sys2Proof.Proofs
end

section
/-! SUPPORT. A framed write under a transmitter that accepts each byte at once (R94, R97): one byte for each
acknowledged main-line step, until nothing remains. -/

namespace Sys2Proof.Proofs

open Sys2Proof Sys2Proof.Machine

/-- The elements outside the TX engine that a framed write leaves alone. -/
structure SameOutside (s t : State) : Prop where
  mem : t.mem = s.mem
  cbslot : t.cbslot = s.cbslot
  dec : t.dec = s.dec
  wakeReq : t.wakeReq = s.wakeReq
  dphase : t.dphase = s.dphase

theorem sameOutside_refl (s : State) : SameOutside s s := ⟨rfl, rfl, rfl, rfl, rfl⟩

theorem sameOutside_trans {s t u : State} (first : SameOutside s t) (second : SameOutside t u) : SameOutside s u :=
  ⟨second.mem.trans first.mem, second.cbslot.trans first.cbslot, second.dec.trans first.dec,
    second.wakeReq.trans first.wakeReq, second.dphase.trans first.dphase⟩

/-- A main-line move inside a write leaves them alone, and the queue too: it is no REGISTER. -/
theorem mainline_sameOutside {s t : State} (busy : s.txstate ≠ .tIdle) (moved : MoveCase .mainline s t) :
    SameOutside s t ∧ t.inputs = s.inputs := by
  cases moved with
  | acceptRegister _ _ _ ready => exact absurd ((cmdReady_iff s).mp ready).1 busy
  | _ => exact ⟨{ sameOutside_refl s with }, rfl⟩

/-- A framed write whose buffer is readable, or what it leaves when it is over, outside the interrupt context. -/
structure FramedRunning (s : State) : Prop where
  inv : s.Inv
  framed : s.txmode = .framed
  outside : s.dphase = .dIdle
  isReadable : ∀ k, k < s.txlen → readable s.cfg (s.txbase + k) = true

/-- Nothing remains exactly when a framed write is over. -/
theorem remaining_eq_nil_iff {s : State} (framed : s.txmode = .framed) : s.remaining = [] ↔ s.txstate = .tIdle := by
  cases at' : s.txstate <;> simp [State.remaining, at', framed, frameEncode]

/-- A step that leaves memory alone conserves the log together with what remains. -/
theorem log_remaining_of_progress {s t : State} {read : List Byte} (p : Progress s t read) (hs : s.Inv) (ht : t.Inv)
    (mem : t.mem = s.mem) : s.txlog ++ s.remaining = t.txlog ++ t.remaining := by
  have kept : bufferKept s t := fun a _ _ => by rw [mem]
  have fits : (unreadBytes t).length = unread t := bufferBytes_length _ _ _
  rw [remaining_eq_pending hs, unreadBytes_of_progress p kept, p.conserved _ fits, ← remaining_eq_pending ht]

section
variable {s : State}

/-- With the hardware ready, main-line has a step in every phase of the write, and it appends a byte. -/
theorem mainline_appends (running : FramedRunning s) (busy : s.txstate ≠ .tIdle) (ready : s.txrdy = true) :
    ∃ t b, perform .mainline s = .next t ∧ t.txlog = s.txlog ++ [b] := by
  obtain ⟨hi, framed, outside, isReadable⟩ := running
  have awake := lpm_eq_false_of_busy hi busy
  cases at' : s.txstate with
  | tIdle => exact absurd at' busy
  | tOpen => exact ⟨_, _, openingDelimiterIsWritten s at' outside awake ready, rfl⟩
  | tEsc2 => exact ⟨_, _, escapeOperandIsWritten s at' outside awake ready, rfl⟩
  | tClose => exact ⟨_, _, closingDelimiterCompletes s at' outside awake ready, rfl⟩
  | tBody =>
    have here := isReadable s.txidx (hi.body at')
    have fetched := perform_payload at' ((mlRun_iff s).mpr ⟨outside, awake⟩)
      ((payloadByte_eq_some s _).mpr ⟨here, rfl⟩)
    rw [fetched, framed]
    unfold decodePayload
    split_ifs with isSync isEscape
    · exact ⟨_, _, (reservedByteEmitsEscapeFirst s _ at' framed outside awake ready here rfl).1 isSync, rfl⟩
    · exact ⟨_, _, (reservedByteEmitsEscapeFirst s _ at' framed outside awake ready here rfl).2 isEscape, rfl⟩
    · exact ⟨_, _, plainByteIsEmittedUnchanged s _ at' framed outside awake ready here rfl isSync isEscape, rfl⟩

/-- A main-line step of the write, with the hardware ready: the first of the remaining bytes is emitted. -/
theorem mainline_emits_next (running : FramedRunning s) (busy : s.txstate ≠ .tIdle) (ready : s.txrdy = true) :
    ∃ t b, perform .mainline s = .next t ∧ FramedRunning t ∧ SameOutside s t ∧ t.inputs = s.inputs ∧
      t.txrdy = false ∧ t.txlog = s.txlog ++ [b] ∧ s.remaining = b :: t.remaining := by
  obtain ⟨t, b, performed, log⟩ := mainline_appends running busy ready
  have moved := perform_cases (sync_ne_escape running.inv.config) performed
  have ht := move_keeps_inv running.inv moved
  obtain ⟨same, queue⟩ := mainline_sameOutside busy moved
  obtain ⟨read, p⟩ := move_progress running.inv busy (fun _ h => by cases h) moved
  have notReady : t.txrdy = false := by
    rcases move_txlog moved with unchanged | ⟨-, notReady, -⟩
    · simp [unchanged] at log
    · exact notReady
  have running' : FramedRunning t :=
    ⟨ht, p.mode.trans running.framed, same.dphase.trans running.outside, by
      rw [p.cfg, p.base, p.len]; exact running.isReadable⟩
  have conserved := log_remaining_of_progress p running.inv ht same.mem
  rw [log, List.append_assoc] at conserved
  exact ⟨t, b, performed, running', same, queue, notReady, log, List.append_cancel_left conserved⟩

/-- The hardware has acknowledged, and `rest` follows the main-line move that is made now (R98). -/
def acked (s : State) (rest : List Move) : State := { s with inputs := rest, strobes := [], txrdy := true }

theorem run_acknowledged {t : State} {rest : List Move} (config : configOk s.cfg = true)
    (queue : s.inputs = .txAck :: .mainline :: rest) (performed : perform .mainline (acked s rest) = .next t)
    (k : Nat) : core.run (k + 2) s = core.run k t := by
  have first : step s = .next { s with inputs := .mainline :: rest, strobes := [], txrdy := true } :=
    step_of_inputs config queue
  have second : step { s with inputs := .mainline :: rest, strobes := [], txrdy := true } = .next t := by
    rw [step_of_inputs (by exact config) rfl]
    exact performed
  rw [run_succ (k + 1) first, run_succ k second]

/-- One acknowledgement and one main-line step emit the first of the remaining bytes. -/
theorem acknowledged_emits_next {rest : List Move} (running : FramedRunning s) (busy : s.txstate ≠ .tIdle)
    (queue : s.inputs = .txAck :: .mainline :: rest) :
    ∃ t b, (∀ k, core.run (k + 2) s = core.run k t) ∧ FramedRunning t ∧ SameOutside s t ∧ t.inputs = rest ∧
      t.txrdy = false ∧ t.txlog = s.txlog ++ [b] ∧ s.remaining = b :: t.remaining := by
  have ackedRunning : FramedRunning (acked s rest) := { running with inv := { running.inv with } }
  obtain ⟨t, b, performed, running', same, queue', emitted⟩ := mainline_emits_next ackedRunning busy rfl
  exact ⟨t, b, run_acknowledged running.inv.config queue performed, running', { same with }, queue', emitted⟩

end

/-- The schedule `ackSchedule` brings a framed write to its end in as many rounds as bytes remain. -/
theorem ackSchedule_completes (n : Nat) {s : State} {rest : List Move} (running : FramedRunning s)
    (notReady : s.txstate = .tIdle → s.txrdy = false) (queue : s.inputs = ackSchedule n ++ rest)
    (bytes : s.remaining.length = n) :
    ∃ t, core.run (2 * n) s = .next t ∧ t.txlog = s.txlog ++ s.remaining ∧ t.txstate = .tIdle ∧ t.txrdy = false ∧
      t.inputs = rest ∧ SameOutside s t := by
  induction n generalizing s with
  | zero =>
    have nothing : s.remaining = [] := List.length_eq_zero_iff.mp bytes
    have idle := (remaining_eq_nil_iff running.framed).mp nothing
    exact ⟨s, rfl, by rw [nothing, List.append_nil], idle, notReady idle, queue, sameOutside_refl s⟩
  | succ n ih =>
    have busy : s.txstate ≠ .tIdle := fun idle => by
      rw [(remaining_eq_nil_iff running.framed).mpr idle] at bytes
      cases bytes
    obtain ⟨t, b, run, running', same, queue', notReady', log, emitted⟩ :=
      acknowledged_emits_next running busy queue
    rw [emitted, List.length_cons, Nat.add_right_cancel_iff] at bytes
    obtain ⟨u, run', log', idle, notReady'', queue'', same'⟩ := ih running' (fun _ => notReady') queue' bytes
    refine ⟨u, (run (2 * n)).trans run', ?_, idle, notReady'', queue'', sameOutside_trans same same'⟩
    rw [log', log, emitted, List.append_assoc, List.singleton_append]

/-- The word of a well-formed command at the port is taken and executed (R85). -/
theorem perform_command {s : State} {i : Instr} (ready : s.cmdReady = true) (config : configOk s.cfg = true)
    (wf : i.wellFormed s.cfg = true) (isCommand : (encode s.cfg i).1 = .cmd)
    (waiting : s.cmdPort = some (encode s.cfg i).2) :
    perform .mainline s = exec i { s with cmdPort := none } := by
  have word := decodeOfEncodeIsTheInstruction s.cfg i config wf
  rw [isCommand] at word
  simp [perform, fetch, ready, waiting, word]

/-- The command has left its port, and `rest` follows the move that took it. -/
def commandTaken (s : State) (rest : List Move) : State := { s with inputs := rest, strobes := [], cmdPort := none }

theorem inv_commandTaken {s : State} (hi : s.Inv) (rest : List Move) : (commandTaken s rest).Inv :=
  { inv_takeCommand hi with }

theorem step_accepts_frameWrite {s : State} {addr len : Nat} {rest : List Move} (config : configOk s.cfg = true)
    (ready : s.cmdReady = true) (wf : (Instr.frameWrite addr len).wellFormed s.cfg = true)
    (waiting : s.cmdPort = some (encode s.cfg (.frameWrite addr len)).2) (queue : s.inputs = .mainline :: rest) :
    step s = .next ((commandTaken s rest).startWrite .framed addr len .tOpen) := by
  rw [step_of_inputs config queue]
  have performed := perform_command (s := { s with inputs := rest, strobes := [] }) ready config wf rfl waiting
  refine performed.trans ?_
  exact (exec_frameWrite_of_ready (s := commandTaken s rest) ready addr len).trans (if_pos wf)

/-- Settles O27: acceptance leaves the whole frame to emit, and `ackSchedule` has a round for each of its bytes. -/
theorem framedWriteCompletes : Obligations.FramedWriteCompletes := by
  intro s addr len rest hi ready wf waiting isReadable queue
  have rounds := frameLengthLaw s.cfg (bufferBytes s.mem addr len)
  rw [bufferBytes_length] at rounds
  rw [← rounds] at queue ⊢
  have accepted := step_accepts_frameWrite hi.config ready wf waiting queue
  have running (moves : List Move) : FramedRunning ((commandTaken s moves).startWrite .framed addr len .tOpen) :=
    { inv := inv_startWrite (inv_commandTaken hi moves) ready wf (.inr (.inl ⟨rfl, rfl⟩))
      framed := rfl
      outside := ((cmdReady_iff s).mp ready).2.1
      isReadable := isReadable }
  obtain ⟨t, run, log, idle, notReady, queue', same⟩ :=
    ackSchedule_completes (frameEncode s.cfg (bufferBytes s.mem addr len)).length (running _) nofun rfl rfl
  refine ⟨t, ?_, log, idle, notReady, queue', same.mem, same.cbslot, same.dec, same.wakeReq⟩
  rw [Nat.add_comm, run_succ _ accepted]
  exact run

end Sys2Proof.Proofs
end

section
/-! SUPPORT. A raw write (R100 to R102): its acceptance, its bytes, and that it emits what it finds in its buffer. -/

namespace Sys2Proof.Proofs

open Sys2Proof Sys2Proof.Machine

/-! Acceptance. -/

/-- The state after the acceptance of a raw write: a write of length 0 is over at once (R100). -/
def rawStarted (s : State) (addr len : Nat) : State :=
  if len = 0 then (s.startWrite .raw addr len .tIdle).cmdDone else s.startWrite .raw addr len .tBody

/-- A host that may present a raw write has its operands checked, and nothing else (R47, R100). -/
theorem exec_rawWrite_of_ready {s : State} (ready : s.cmdReady = true) (addr len : Nat) :
    exec (.rawWrite addr len) s =
      if writeOk s.cfg addr len then .next (rawStarted s addr len) else .refused .addressRange := by
  simp only [exec, execRawWrite, ready, if_true, rawStarted, apply_ite Host.Outcome.next]

/-- Settles O10: the host is ready and the operands pass their check. -/
theorem rawWriteIsAccepted : Obligations.RawWriteIsAccepted := by
  intro s addr len idle outside awake addrFits lenFits inRange
  have ready : s.cmdReady = true := (cmdReady_iff s).mpr ⟨idle, outside, awake⟩
  have ok : writeOk s.cfg addr len = true := (writeOk_iff s.cfg addr len).mpr ⟨addrFits, lenFits, inRange⟩
  rw [exec_rawWrite_of_ready ready, if_pos ok]
  rfl

/-! The payload bytes. -/

/-- Settles O20: the byte at the payload address meets the guard of P_RAW, which asks nothing of its value. -/
theorem rawByteIsEmittedUnchanged : Obligations.RawByteIsEmittedUnchanged := by
  intro s b inBody raw outside awake ready isReadable byte
  have bodyReady : s.bodyReady .raw b = true :=
    bodyReady_of_readable inBody raw (txEnabled_of_awake outside awake ready) isReadable byte
  have emits : exec (.pRaw b) s = .next (s.readPayload.txWrite b).advanceRaw := if_pos bodyReady
  rw [emits]
  by_cases last : s.txidx + 1 = s.txlen <;>
    simp [last, State.advanceRaw, State.txWrite, State.readPayload, State.payloadAddr]

/-! The whole write. -/

theorem inv_rawStarted {s : State} (hi : s.Inv) {addr len : Nat} (ready : s.cmdReady = true)
    (ok : writeOk s.cfg addr len = true) : (rawStarted s addr len).Inv := by
  unfold rawStarted
  split
  case isTrue => exact inv_cmdDone (inv_startWrite hi ready ok (.inl rfl))
  case isFalse nonempty => exact inv_startWrite hi ready ok (.inr (.inr ⟨rfl, Nat.pos_of_ne_zero nonempty⟩))

theorem rawStarted_txlog (s : State) (addr len : Nat) : (rawStarted s addr len).txlog = s.txlog := by
  unfold rawStarted
  split <;> rfl

/-- From its acceptance a raw write has its whole buffer to emit, and nothing else (R70, R102). -/
theorem remaining_rawStarted (s : State) (addr len : Nat) :
    (rawStarted s addr len).remaining = bufferBytes s.mem addr len := by
  unfold rawStarted
  split
  case isTrue empty =>
    subst empty
    rfl
  case isFalse => rfl

/-- A write whose buffer nobody writes emits what remains of it (R93, R102). -/
theorem writeRun_emits_remaining {s u : State} (run : WriteRun true s u) (hi : s.Inv) (idle : u.txstate = .tIdle) :
    u.txlog = s.txlog ++ s.remaining := by
  obtain ⟨payload, -, log, same⟩ := writeRun_emits run hi idle
  rw [log, same rfl, remaining_eq_pending hi]

/-- Settles O26: what remains of the write at its acceptance is its buffer. -/
theorem rawWriteEmitsTheBuffer : Obligations.RawWriteEmitsTheBuffer := by
  intro s t u addr len hi accepted ready run idle
  rw [exec_rawWrite_of_ready ready] at accepted
  split at accepted
  case isTrue ok =>
    cases accepted
    rw [writeRun_emits_remaining run (inv_rawStarted hi ready ok) idle, rawStarted_txlog, remaining_rawStarted]
  case isFalse => cases accepted

end Sys2Proof.Proofs
end

section
/-! SUPPORT. The dispatch one move at a time: REGISTER (R110), the interrupt agent in each phase (R164, R115 to R118,
R121, R122, R168), and the answer of an external handler (R120). -/

namespace Sys2Proof.Proofs

open Sys2Proof Sys2Proof.Machine

/-- Settles O11: the host is ready and the identifier has HID_W bits. -/
theorem registerReplacesTheSlot : Obligations.RegisterReplacesTheSlot := by
  intro s hid idle outside awake fits
  have ready : s.cmdReady = true := (cmdReady_iff s).mpr ⟨idle, outside, awake⟩
  exact (if_pos ready).trans (if_pos fits)

/-! The event rows (R115, R116). -/

/-- Settles O29: each row's guard is the phase and its own values of the two flags. -/
theorem foreignEventIsIgnored : Obligations.ForeignEventIsIgnored := by
  intro s inIdent quiet
  constructor
  · intro foreign
    exact if_pos (by simp [inIdent, quiet, foreign])
  · intro noForeign
    exact if_pos (by simp [inIdent, quiet, noForeign])

/-- Settles O30: the row is the one with the value OTHERIFG has, so its guard asks for the phase and RXIFG alone. -/
theorem receiveEventReadsTheByte : Obligations.ReceiveEventReadsTheByte := by
  intro s inIdent pending
  exact if_pos (by simp [inIdent, pending])

/-! The interrupt agent's move in each phase. -/

/-- The external handler being called has answered `a`, which ends the call (R117, R120). -/
def answered (s : State) (a : HandlerAnswer) : State :=
  ({ s with hstate := a.hstate, mem := writeBytes s.mem a.writes }).finishCall a.ret

section
variable {s : State}

@[simp] theorem answered_wakeReq (a : HandlerAnswer) : (answered s a).wakeReq = (s.wakeReq || truthy a.ret) := rfl
@[simp] theorem answered_lpm (a : HandlerAnswer) : (answered s a).lpm = s.lpm := rfl
@[simp] theorem answered_wakelog (a : HandlerAnswer) : (answered s a).wakelog = s.wakelog := rfl
@[simp] theorem answered_cblog (a : HandlerAnswer) :
    (answered s a).cblog = s.cblog ++ [⟨s.cbslot, s.rxbyte, a.ret⟩] := rfl

theorem perform_interrupt_of_idle (idle : s.dphase = .dIdle) (pending : s.irq = true) :
    perform .interrupt s = .next s.takeInterrupt := by
  simp [perform_interrupt, interruptStep, idle, pending]

theorem perform_interrupt_of_rx (inIdent : s.dphase = .dIdent) (pending : s.rxifg = true) :
    perform .interrupt s = .next s.rxRead := by
  simp [perform_interrupt, inIdent, pending]

theorem perform_interrupt_of_decoder (inCall : s.dphase = .dCall) (slot : s.cbslot = hDecoder) :
    perform .interrupt s = .next (s.finishDecoder (decStep s.cfg s.dec s.rxbyte)) := by
  simp [perform_interrupt, inCall, slot]

theorem perform_interrupt_of_default (inCall : s.dphase = .dCall) (slot : s.cbslot = hDefault) :
    perform .interrupt s = .next (s.finishCall 0) := by
  have notDecoder : hDefault ≠ hDecoder := by decide
  simp [perform_interrupt, interruptStep, callDefault, inCall, slot, notDecoder]

/-- In a call of a handler that is not built in, the move finds out only whether the bank defines it (R121, R122). -/
theorem perform_interrupt_of_bank (inCall : s.dphase = .dCall) (notDefault : s.cbslot ≠ hDefault)
    (notDecoder : s.cbslot ≠ hDecoder) :
    perform .interrupt s = if isExternal s.cfg s.cbslot then .next s else .fault .invalidHandler := by
  simp [perform_interrupt, interruptStep, inCall, notDefault, notDecoder]

theorem perform_interrupt_of_exit (inExit : s.dphase = .dExit) :
    perform .interrupt s = .next s.leaveInterrupt := by
  simp [perform_interrupt, interruptStep, inExit]

theorem perform_cbDone_of_call {a : HandlerAnswer} (inCall : s.dphase = .dCall)
    (external : isExternal s.cfg s.cbslot = true) (ok : answerOk s.cfg a = true) :
    perform (.cbDone a) s = .next (answered s a) := by
  simp [perform, fetch, act, ok, answerCall, State.cbCall, inCall, external, answered]

end

/-- Step 5 of the dispatch: the latch after a return value (R78, R118). -/
theorem latch_eq_ite (latched : Bool) (ret : Nat) :
    (latched || truthy ret) = if ret = 0 then latched else true := by
  by_cases zero : ret = 0 <;> simp [truthy, zero]

/-- Settles O31: the default handler returns 0, which leaves the latch as it is. -/
theorem defaultHandlerDoesNothing : Obligations.DefaultHandlerDoesNothing := by
  intro s inCall slot
  rw [perform_interrupt_of_default inCall slot]
  simp only [State.finishCall, latch_eq_ite, if_true, slot]

/-- Settles O32: the port can carry the answer, so the call ends with it. -/
theorem externalHandlerReturns : Obligations.ExternalHandlerReturns := by
  intro s a inCall external retFits inside
  rw [perform_cbDone_of_call inCall external ((answerOk_iff s.cfg a).mpr ⟨retFits, inside⟩)]
  simp only [answered, State.finishCall, latch_eq_ite]

/-- Settles O33: with no built-in identifier in the slot, only the bank's definition is asked. -/
theorem callWithoutAnAnswer : Obligations.CallWithoutAnAnswer := by
  intro s inCall notDefault notDecoder
  rw [perform_interrupt_of_bank inCall notDefault notDecoder]
  exact ⟨fun undefined => by simp [undefined], fun defined => by simp [defined]⟩

end Sys2Proof.Proofs
end

section
/-! SUPPORT. What every step of the dispatch keeps: the default handler's silence (R113, R126), the one read of the
receive register (R116, R205), and the transition relations of the three sequencers (R114, R127, R136). -/

namespace Sys2Proof.Proofs

open Sys2Proof Sys2Proof.Machine

/-! The default handler (R113, R126). -/

/-- From `s` to `t` no handler but the default one has been at work: the latch, the wake log, and the decoder with its
log are the same, and the log of invocations has at most a call of the default handler more, which returned 0. -/
structure OnlyDefault (s t : State) : Prop where
  wakeReq : t.wakeReq = s.wakeReq
  wakelog : t.wakelog = s.wakelog
  declog : t.declog = s.declog
  dec : t.dec = s.dec
  cblog : t.cblog = s.cblog ∨ ∃ b, t.cblog = s.cblog ++ [⟨hDefault, b, 0⟩]

theorem onlyDefault_refl (s : State) : OnlyDefault s s := ⟨rfl, rfl, rfl, rfl, .inl rfl⟩

/-- The return value 0 latches nothing (R118). -/
theorem onlyDefault_call {s : State} (slot : s.cbslot = hDefault) : OnlyDefault s (s.finishCall 0) where
  wakeReq := by simp [truthy]
  wakelog := rfl
  declog := rfl
  dec := rfl
  cblog := .inr ⟨s.rxbyte, by rw [finishCall_cblog, slot]⟩

/-- The interrupt exit sends no wake signal when none is latched (R170). -/
theorem onlyDefault_leave {s : State} (unlatched : s.wakeReq = false) : OnlyDefault s s.leaveInterrupt where
  wakeReq := by simp [unlatched]
  wakelog := by simp [unlatched]
  declog := leaveInterrupt_declog s
  dec := leaveInterrupt_dec s
  cblog := .inl (leaveInterrupt_cblog s)

/-- With the default handler in the slot, the calls of the decoder and of an external handler are not made. -/
theorem move_onlyDefault {m : Move} {s t : State} (live : ∀ d, m ≠ .rst d) (slot : s.cbslot = hDefault)
    (unlatched : s.wakeReq = false) (moved : MoveCase m s t) : OnlyDefault s t := by
  cases moved with
  | default => exact onlyDefault_call slot
  | decoder _ _ slot' => exact absurd (slot.symm.trans slot') (by decide)
  | answer _ _ _ external _ =>
    have := isExternal_two_le s.cfg s.cbslot external
    simp [slot, hDefault] at this
  | leave => exact onlyDefault_leave unlatched
  | reset _ d _ => exact absurd rfl (live d)
  | _ => exact { onlyDefault_refl s with }

/-- Settles O36: taking the move from the queue touches none of the elements. -/
theorem defaultHandlerNeverWakes : Obligations.DefaultHandlerNeverWakes := by
  intro s t live slot unlatched stepped
  obtain ⟨-, moved⟩ := step_cases stepped
  obtain ⟨wakeReq, wakelog, declog, dec, cblog⟩ :=
    move_onlyDefault live ((beginStep_cbslot s).trans slot) ((beginStep_wakeReq s).trans unlatched) moved
  simp only [beginStep_wakeReq, beginStep_wakelog, beginStep_declog, beginStep_dec, beginStep_cblog]
    at wakeReq wakelog declog dec cblog
  exact ⟨wakeReq.trans unlatched, wakelog, declog, dec, cblog⟩

/-! The receive register (R116, R205). -/

/-- A pending byte stops being pending only when it is read, in the identification step. -/
theorem move_clears_rxifg {m : Move} {s t : State} (pending : s.rxifg = true) (cleared : t.rxifg = false)
    (moved : MoveCase m s t) : m = .interrupt ∧ s.dphase = .dIdent ∧ t = s.rxRead := by
  cases moved with
  | read _ inIdent _ => exact ⟨rfl, inIdent, rfl⟩
  | leave => simp [pending] at cleared
  | arrive => cases cleared
  | _ => exact absurd (pending.symm.trans cleared) (by decide)

/-- Settles O59: the read is the only move that clears RXIFG, and with RXIFG = 1 it is the move that the interrupt
agent makes in D_IDENT. -/
theorem receiveRegisterIsReadOncePerEvent : Obligations.ReceiveRegisterIsReadOncePerEvent := by
  intro s t stepped pending
  obtain ⟨config, moved⟩ := step_cases stepped
  have pending' : (beginStep s).rxifg = true := (beginStep_rxifg s).trans pending
  refine ⟨⟨fun cleared => ?_, fun ⟨interrupt, inIdent⟩ => ?_⟩, fun cleared => ?_⟩
  · obtain ⟨interrupt, inIdent, -⟩ := move_clears_rxifg pending' cleared moved
    exact ⟨interrupt, by simpa using inIdent⟩
  · rw [step_eq_perform config, interrupt,
      perform_interrupt_of_rx ((beginStep_dphase s).trans inIdent) pending'] at stepped
    cases stepped
    rfl
  · obtain ⟨-, -, rfl⟩ := move_clears_rxifg pending' cleared moved
    simp

/-! The transition relations. -/

/-- The table of R114. -/
def dphaseTable : List (DPhase × DPhase) :=
  [(.dIdle, .dIdent), (.dIdent, .dCall), (.dIdent, .dExit), (.dCall, .dExit), (.dExit, .dIdle)]

/-- The relation of R127, without the step that ends a raw write. -/
def txstateTable : List (TxState × TxState) :=
  [(.tIdle, .tOpen), (.tIdle, .tBody), (.tOpen, .tBody), (.tOpen, .tClose), (.tBody, .tClose),
    (.tBody, .tEsc2), (.tEsc2, .tBody), (.tEsc2, .tClose), (.tClose, .tIdle)]

/-- The table of R136. -/
def decStateTable : List (DecState × DecState) :=
  [(.hunt, .data), (.data, .hunt), (.data, .esc), (.esc, .hunt), (.esc, .data)]

theorem move_dphase {m : Move} {s t : State} (live : ∀ d, m ≠ .rst d) (moved : MoveCase m s t) :
    t.dphase = s.dphase ∨ (s.dphase, t.dphase) ∈ dphaseTable := by
  cases moved with
  | enter _ phase _ | read _ phase _ | ignore _ phase _ | default _ phase _ | decoder _ phase _ | leave _ phase
  | answer _ _ phase _ _ => exact .inr (by simp [phase, dphaseTable])
  | reset _ d _ => exact absurd rfl (live d)
  | _ => exact .inl rfl

/-- A framed payload byte is followed by another or by the closing delimiter (R87, R89). -/
theorem advanceFramed_txstate_cases (s : State) :
    s.advanceFramed.txstate = .tClose ∨ s.advanceFramed.txstate = .tBody := by
  rw [advanceFramed_txstate]
  split
  · exact .inl rfl
  · exact .inr rfl

/-- A raw payload byte is followed by another or ends the write (R101). -/
theorem advanceRaw_txstate_cases (s : State) :
    s.advanceRaw.txstate = .tIdle ∨ s.advanceRaw.txstate = .tBody := by
  rw [advanceRaw_txstate]
  split
  · exact .inl rfl
  · exact .inr rfl

theorem move_txstate {m : Move} {s t : State} (live : ∀ d, m ≠ .rst d) (moved : MoveCase m s t) :
    t.txstate = s.txstate ∨ (s.txstate, t.txstate) ∈ txstateTable ∨
      (s.txmode = .raw ∧ s.txstate = .tBody ∧ t.txstate = .tIdle) := by
  cases moved with
  | acceptFrame _ _ _ _ ready | acceptRaw _ _ _ _ ready =>
    exact .inr (.inl (by simp [((cmdReady_iff s).mp ready).1, txstateTable]))
  | acceptEmptyRaw _ _ _ ready => exact .inl ((cmdReady_iff s).mp ready).1.symm
  | plain _ b ready _ =>
    obtain ⟨inBody, -⟩ := txrdy_of_bodyReady ready
    rcases advanceFramed_txstate_cases (s.readPayload.txWrite b) with next | next
    · exact .inr (.inl (by rw [inBody, next]; decide))
    · exact .inl (next.trans inBody.symm)
  | escape _ b ready _ => exact .inr (.inl (by simp [(txrdy_of_bodyReady ready).1, txstateTable]))
  | raw _ b ready =>
    obtain ⟨inBody, raw, -, -⟩ := (bodyReady_iff s .raw b).mp ready
    rcases advanceRaw_txstate_cases (s.readPayload.txWrite b) with next | next
    · exact .inr (.inr ⟨raw, inBody, next⟩)
    · exact .inl (next.trans inBody.symm)
  | opening _ inOpen _ =>
    right; left
    by_cases empty : s.txlen = 0 <;> simp [inOpen, empty, txstateTable]
  | operand _ inEsc2 _ =>
    rcases advanceFramed_txstate_cases (s.txWrite (s.txcur ^^^ xmask)) with next | next <;>
      exact .inr (.inl (by rw [inEsc2, next]; decide))
  | closing _ inClose _ => exact .inr (.inl (by simp [inClose, txstateTable]))
  | leave => exact .inl (leaveInterrupt_txstate s)
  | reset _ d _ => exact absurd rfl (live d)
  | _ => exact .inl rfl

theorem decAppend_state (c : Config) (d : Decoder) (v : Byte) : (decAppend c d v).state = d.state := by
  unfold decAppend
  split <;> rfl

theorem decStep_state (c : Config) (d : Decoder) (b : Byte) :
    (decStep c d b).dec.state = d.state ∨ (d.state, (decStep c d b).dec.state) ∈ decStateTable := by
  rcases decStep_cases c d b with ⟨hunt, -, h⟩ | ⟨-, -, h⟩ | ⟨data, -, -, h⟩ | ⟨data, -, -, h⟩ | ⟨data, -, -, h⟩ |
    ⟨-, -, -, h⟩ | ⟨esc, -, h⟩ | ⟨esc, -, h⟩ <;> rw [h]
  · exact .inr (by simp [hunt, decStateTable])
  · exact .inl rfl
  · exact .inr (by simp [data, decStateTable])
  · exact .inr (by simp [data, decStateTable])
  · exact .inr (by simp [data, decStateTable])
  · exact .inl (decAppend_state c d b)
  · exact .inr (by simp [esc, decStateTable])
  · exact .inr (by simp [esc, decStateTable])

/-- The decoder moves in its own call only, and there as `dec_step` does (R125, R136). -/
theorem move_dec {m : Move} {s t : State} (live : ∀ d, m ≠ .rst d) (moved : MoveCase m s t) :
    t.dec = s.dec ∨
      (s.dphase = .dCall ∧ s.cbslot = hDecoder ∧ t.dec = (decStep s.cfg s.dec s.rxbyte).dec) := by
  cases moved with
  | decoder _ inCall slot => exact .inr ⟨inCall, slot, rfl⟩
  | leave => exact .inl (leaveInterrupt_dec s)
  | reset _ d _ => exact absurd rfl (live d)
  | _ => exact .inl rfl

/-- Settles O56: the relations hold of each move, which is made at the state where it has been taken from the
queue. -/
theorem sequencersFollowTheirRelations : Obligations.SequencersFollowTheirRelations := by
  intro s t live stepped
  obtain ⟨-, moved⟩ := step_cases stepped
  have dphase := move_dphase live moved
  have txstate := move_txstate live moved
  have dec := move_dec live moved
  simp only [beginStep_dphase, beginStep_txstate, beginStep_txmode, beginStep_cfg, beginStep_cbslot, beginStep_dec,
    beginStep_rxbyte] at dphase txstate dec
  refine ⟨dphase, txstate, ?_⟩
  rcases dec with kept | ⟨inCall, slot, called⟩
  · exact .inl (by rw [kept])
  · rw [called]
    exact (decStep_state s.cfg s.dec s.rxbyte).imp_right fun moves => ⟨inCall, slot, moves⟩

end Sys2Proof.Proofs
end

section
/-! SUPPORT. The two ways into `dec_step` (R125, R136), as a step of the dispatch. -/

namespace Sys2Proof.Proofs

open Sys2Proof Sys2Proof.Machine

/-! The rows of the decoder. -/

section
variable {s : State}

/-- The guard of a row holds in a call of H_DECODER with the row's byte, in the row's state. -/
theorem decoderTransition_of_called {b : Byte} {st : DecState} (called : s.decoderCalled b = true)
    (inState : s.dec.state = st) (r : DecResult) : decoderTransition st b r s = s.finishDecoder r := by
  simp [decoderTransition, called, inState]

/-- The row of R136 that the decoder's state and the received byte select is one call of `dec_step`. -/
theorem decodeTransition_run (distinct : s.cfg.sync ≠ s.cfg.escape) (inCall : s.dphase = .dCall)
    (slot : s.cbslot = hDecoder) :
    exec (decodeTransition s.cfg s.dec.state s.rxbyte) s =
      .next (s.finishDecoder (decStep s.cfg s.dec s.rxbyte)) := by
  have called : s.decoderCalled s.rxbyte = true := (decoderCalled_iff s _).mpr ⟨inCall, slot, rfl⟩
  generalize s.rxbyte = b at called ⊢
  cases inState : s.dec.state with
  | hunt =>
    have row := decoderTransition_of_called called inState
    by_cases isSync : b = s.cfg.sync
    · subst isSync
      simp [decodeTransition, exec, execDecHuntSync, row, decStep, inState]
    · simp [decodeTransition, exec, execDecHuntOther, row, decStep, inState, isSync]
  | data =>
    have row := decoderTransition_of_called called inState
    by_cases isSync : b = s.cfg.sync
    · subst isSync
      simp [decodeTransition, exec, execDecDataSync, row, decStep, inState]
    · by_cases isEscape : b = s.cfg.escape
      · subst isEscape
        simp [decodeTransition, exec, execDecDataEscape, row, decStep, inState, distinct.symm]
      · have plain : isReserved s.cfg b = false := plain_iff.mpr ⟨isSync, isEscape⟩
        simp [decodeTransition, exec, execDecDataLit, row, decStep, inState, isSync, isEscape, plain]
  | esc =>
    have row := decoderTransition_of_called called inState
    by_cases isSync : b = s.cfg.sync
    · subst isSync
      simp [decodeTransition, exec, execDecEscSync, row, decStep, inState]
    · simp [decodeTransition, exec, execDecEscOther, row, decStep, inState, isSync]

end

/-- Settles O43: the row of the byte's class (`decodeWire_run`) and the row of the table end in the state in which
`dec_step` has been called. -/
theorem wireSymbolsCallTheDecoder : Obligations.WireSymbolsCallTheDecoder := by
  intro s config inCall slot
  have distinct := sync_ne_escape config
  have symbol := decodeWire_run s inCall slot
  have called : (s.finishDecoder (decStep s.cfg s.dec s.rxbyte)).cblog =
      s.cblog ++ [⟨1, s.rxbyte, (decStep s.cfg s.dec s.rxbyte).ret⟩] := by
    rw [finishDecoder_cblog, slot]
  refine ⟨s.finishDecoder (decStep s.cfg s.dec s.rxbyte), rfl, rfl, rfl, rfl, called, rfl, rfl, rfl, rfl, rfl,
    fun isSync => ?_, fun isEscape => ?_, fun notSync notEscape => ?_, decodeTransition_run distinct inCall slot⟩
  · rwa [decodeWire, if_pos isSync] at symbol
  · rwa [decodeWire, if_neg (isEscape ▸ distinct.symm), if_pos isEscape] at symbol
  · rwa [decodeWire, if_neg notSync, if_neg notEscape] at symbol

end Sys2Proof.Proofs
end

section
/-! SUPPORT. Runs of the dispatch from a queue of moves, and the odd-byte handler of scenario 3 (R118, R126, R168). -/

namespace Sys2Proof.Proofs

open Sys2Proof Sys2Proof.Machine

/-- The first move of the queue has been taken from it, and `rest` is left. -/
def taken (s : State) (rest : List Move) : State := { s with inputs := rest, strobes := [] }

section
variable (s : State) (rest : List Move)

@[simp] theorem taken_cfg : (taken s rest).cfg = s.cfg := rfl
@[simp] theorem taken_cbslot : (taken s rest).cbslot = s.cbslot := rfl
@[simp] theorem taken_wakeReq : (taken s rest).wakeReq = s.wakeReq := rfl
@[simp] theorem taken_rxifg : (taken s rest).rxifg = s.rxifg := rfl
@[simp] theorem taken_lpm : (taken s rest).lpm = s.lpm := rfl
@[simp] theorem taken_dec : (taken s rest).dec = s.dec := rfl
@[simp] theorem taken_txstate : (taken s rest).txstate = s.txstate := rfl
@[simp] theorem taken_txlog : (taken s rest).txlog = s.txlog := rfl
@[simp] theorem taken_cblog : (taken s rest).cblog = s.cblog := rfl
@[simp] theorem taken_wakelog : (taken s rest).wakelog = s.wakelog := rfl
@[simp] theorem taken_declog : (taken s rest).declog = s.declog := rfl
@[simp] theorem taken_inputs : (taken s rest).inputs = rest := rfl

/-- The interrupt exit appends the tag of the wake signal if one is sent (R168). -/
theorem leaveInterrupt_wakelog_append :
    s.leaveInterrupt.wakelog = s.wakelog ++ if s.wakeReq then [s.cblog.length] else [] := by
  cases latched : s.wakeReq <;> simp [latched]

end

/-- A run whose first move is the first of the queue. -/
theorem run_taken {s t : State} {m : Move} {rest : List Move} (config : configOk s.cfg = true)
    (queue : s.inputs = m :: rest) (performed : perform m (taken s rest) = .next t) (k : Nat) :
    core.run (k + 1) s = core.run k t :=
  run_succ k ((step_of_inputs config queue).trans performed)

/-! The odd-byte handler. -/

/-- An answer 1 for an odd byte, 0 for an even one: nonzero exactly for the odd ones (R78, R118). -/
theorem truthy_mod_two (n : Nat) : truthy (n % 2) = decide (n % 2 = 1) := by
  rcases Nat.mod_two_eq_zero_or_one n with even | odd
  · simp [even, truthy]
  · simp [odd, truthy]

/-- Settles O38: the latch, clear before the call, holds the byte's parity at the interrupt exit. -/
theorem oddByteHandlerWakesOnOddBytes : Obligations.OddByteHandlerWakesOnOddBytes := by
  intro s a rest hi inCall external answer ok queue
  have unlatched : s.wakeReq = false := wakeReq_eq_false hi (by simp [inCall])
  have parity : a.ret = s.rxbyte.toNat % 2 := answer
  have called := run_taken hi.config queue (perform_cbDone_of_call inCall external ok) 1
  have left := run_taken (s := answered (taken s (.interrupt :: rest)) a) hi.config rfl
    (perform_interrupt_of_exit (s := taken _ rest) rfl) 0
  refine ⟨_, called.trans left, by simp, by simp, ?_, ?_⟩
  · rw [leaveInterrupt_wakelog_append]
    simp [unlatched, parity, truthy_mod_two]
  · simp [unlatched, parity, truthy_mod_two]

end Sys2Proof.Proofs
end

section
/-! SUPPORT. The decoder over a frame (R145, R147), and a frame that arrives byte by byte and is dispatched to H_DECODER
(R116 to R118, R125, R164, R168, R174). -/

namespace Sys2Proof.Proofs

open Sys2Proof Sys2Proof.Machine

/-! The decoder over a frame (R147). -/

section
variable {c : Config}

/-- Below the capacity a byte is appended (R144). -/
theorem decAppend_of_room {v : Byte} {buf : List Byte} (st : DecState) (room : fits c (buf ++ [v])) :
    decAppend c ⟨st, false, buf⟩ v = ⟨st, false, buf ++ [v]⟩ := by
  have below : underCap c buf.length = true :=
    (underCap_iff c _).mpr fun cap hcap => by simpa using room cap hcap
  simp [decAppend, below]

theorem fits_of_append {xs ys : List Byte} (room : fits c (xs ++ ys)) : fits c xs := fun cap hcap => by
  have := room cap hcap
  rw [List.length_append] at this
  omega

/-- The escaped form of one byte puts that byte into the buffer, without an answer or an event (R140, R141, R143). -/
theorem decFold_escByte (config : configOk c = true) {b : Byte} {buf : List Byte} (room : fits c (buf ++ [b])) :
    decFold c ⟨.data, false, buf⟩ (escByte c b) =
      (⟨.data, false, buf ++ [b]⟩, List.replicate (escByte c b).length 0, []) := by
  cases reserved : isReserved c b with
  | true =>
    have operand : b ^^^ xmask ≠ c.sync := operand_ne_sync config reserved
    simp [escByte_of_reserved reserved, decFold, decStep, stepDataEscape, stepEscOther, (sync_ne_escape config).symm,
      operand, decAppend_of_room _ room]
  | false =>
    obtain ⟨notSync, notEscape⟩ := plain_iff.mp reserved
    simp [escByte_of_plain reserved, decFold, decStep, stepDataLit, notSync, notEscape, decAppend_of_room _ room]

theorem decFold_escBytes (config : configOk c = true) (payload : List Byte) {buf : List Byte}
    (room : fits c (buf ++ payload)) :
    decFold c ⟨.data, false, buf⟩ (escBytes c payload) =
      (⟨.data, false, buf ++ payload⟩, List.replicate (escBytes c payload).length 0, []) := by
  induction payload generalizing buf with
  | nil => simp [escBytes, decFold]
  | cons b payload ih =>
    rw [List.append_cons] at room
    have tail := ih room
    have head := decFold_escByte config (fits_of_append room)
    simp [escBytes, decFold_append, head, tail]

/-- A whole frame, from outside a frame: the decoder answers 1 at the closing delimiter alone, with the payload. -/
theorem decFold_frameEncode (config : configOk c = true) {d : Decoder} {payload : List Byte}
    (outside : d.state = .hunt) (room : fits c payload) :
    decFold c d (frameEncode c payload) =
      (⟨.hunt, false, payload⟩, List.replicate ((frameEncode c payload).length - 1) 0 ++ [1], [.frame payload]) := by
  have opening : decStep c d c.sync = ⟨⟨.data, false, []⟩, 0, none⟩ := by simp [decStep, outside, stepHuntSync]
  have inside := decFold_escBytes (buf := []) config payload room
  have closing :
      decStep c ⟨.data, false, payload⟩ c.sync = ⟨⟨.hunt, false, payload⟩, 1, some (.frame payload)⟩ := by
    simp [decStep, stepDataSync]
  simp only [frameEncode, decFold, decFold_append, opening, inside, List.nil_append, closing]
  simp [List.replicate_succ]

end

/-! One byte under H_DECODER. -/

/-- The dispatcher is idle with no byte pending, and H_DECODER is in the slot. -/
structure Listening (s : State) : Prop where
  config : configOk s.cfg = true
  slot : s.cbslot = hDecoder
  idle : s.dphase = .dIdle
  noByte : s.rxifg = false
  unlatched : s.wakeReq = false

/-- The byte `b` has arrived and has been read, H_DECODER is to be called with it, and `rest` follows (R116, R174). -/
def heard (s : State) (b : Byte) (rest : List Move) : State :=
  { s with rxbuf := b, rxbyte := b, rxifg := false, dphase := .dCall, inputs := rest, strobes := [.rxRead] }

/-- H_DECODER has returned and the interrupt has been left (R125, R168). -/
def dispatched (s : State) (b : Byte) (rest : List Move) : State :=
  let called := taken (heard s b (.interrupt :: .interrupt :: rest)) (.interrupt :: rest)
  (taken (called.finishDecoder (decStep s.cfg s.dec b)) rest).leaveInterrupt

section
variable {s : State} {b : Byte} {rest : List Move}

theorem perform_rx_of_idle (idle : s.dphase = .dIdle) (noByte : s.rxifg = false) (v draw : Byte) (held : Bool) :
    perform (.rx v draw held) s = .next { s with rxbuf := v, rxifg := true } := by
  simp [perform, fetch, act, receive, idle, noByte]

/-- Arrival (R174), entry (R164) and the read (R116). -/
theorem run_heard (listening : Listening s)
    (queue : s.inputs = .rx b 0#8 true :: .interrupt :: .interrupt :: rest) (k : Nat) :
    core.run (k + 3) s = core.run k (heard s b rest) := by
  obtain ⟨config, -, idle, noByte, -⟩ := listening
  refine (run_taken config queue (perform_rx_of_idle (s := taken s _) idle noByte b _ _) (k + 2)).trans ?_
  refine (run_taken (by exact config) rfl (perform_interrupt_of_idle (by exact idle) rfl) (k + 1)).trans ?_
  exact run_taken (by exact config) rfl (perform_interrupt_of_rx rfl rfl) k

/-- After the read, the call (R125) and the exit (R168). -/
theorem run_dispatched (listening : Listening s)
    (queue : s.inputs = .rx b 0#8 true :: .interrupt :: .interrupt :: .interrupt :: .interrupt :: rest) (k : Nat) :
    core.run (k + 5) s = core.run k (dispatched s b rest) := by
  refine (run_heard listening queue (k + 2)).trans ?_
  obtain ⟨config, slot, -⟩ := listening
  have calls := run_taken (s := heard s b (.interrupt :: .interrupt :: rest)) config rfl
    (perform_interrupt_of_decoder rfl (by exact slot)) (k + 1)
  exact calls.trans (run_taken (by exact config) rfl (perform_interrupt_of_exit rfl) k)

/-- The interrupt has been left and nothing has been latched or has arrived since (R168). -/
theorem listening_dispatched (listening : Listening s) : Listening (dispatched s b rest) where
  config := by simp [dispatched, heard, listening.config]
  slot := by simp [dispatched, heard, listening.slot]
  idle := by simp [dispatched]
  noByte := by simp [dispatched, heard]
  unlatched := by simp [dispatched]

end

/-! A sequence of bytes under H_DECODER. -/

/-- The tags of the wake signals that a sequence of return values sends, after `n` invocations (R168). -/
def wakeTags (n : Nat) : List Nat → List Nat
  | [] => []
  | ret :: rets => (if truthy ret then [n + 1] else []) ++ wakeTags (n + 1) rets

/-- From `s` to `t` the bytes have been dispatched to H_DECODER one after another: what `dec_step` made of them in
sequence, and nothing at the transmitter. -/
structure Decoded (s t : State) (bytes : List Byte) : Prop where
  dec : t.dec = (decFold s.cfg s.dec bytes).1
  declog : t.declog = s.declog ++ (decFold s.cfg s.dec bytes).2.2
  wakelog : t.wakelog = s.wakelog ++ wakeTags s.cblog.length (decFold s.cfg s.dec bytes).2.1
  lpm : t.lpm = (s.lpm && !(decFold s.cfg s.dec bytes).2.1.any truthy)
  txlog : t.txlog = s.txlog
  txstate : t.txstate = s.txstate

theorem decoded_nil (s : State) : Decoded s s [] := by
  constructor <;> simp [decFold, wakeTags]

/-- What the first byte is decoded to, then the others. -/
theorem decoded_cons {s t : State} {b : Byte} {bytes : List Byte} {rest : List Move} (listening : Listening s)
    (later : Decoded (dispatched s b rest) t bytes) : Decoded s t (b :: bytes) := by
  obtain ⟨dec, declog, wakelog, lpm, txlog, txstate⟩ := later
  constructor
  · simp [dec, dispatched, heard, decFold]
  · simp [declog, dispatched, heard, decFold]
  · rw [wakelog, dispatched, leaveInterrupt_wakelog_append]
    simp [heard, decFold, wakeTags, listening.unlatched]
  · simp [lpm, dispatched, heard, decFold, listening.unlatched, Bool.and_assoc, Bool.and_left_comm]
  · simp [txlog, dispatched, heard]
  · simp [txstate, dispatched, heard]

/-- The schedule `dispatchSchedule` delivers its bytes to the decoder in order. -/
theorem dispatchSchedule_completes (bytes : List Byte) {s : State} {rest : List Move} (listening : Listening s)
    (queue : s.inputs = dispatchSchedule bytes ++ rest) :
    ∃ t, core.run (5 * bytes.length) s = .next t ∧ Decoded s t bytes ∧ Listening t ∧ t.inputs = rest := by
  induction bytes generalizing s with
  | nil => exact ⟨s, rfl, decoded_nil s, listening, queue⟩
  | cons b bytes ih =>
    have first := run_dispatched listening queue (5 * bytes.length)
    obtain ⟨t, run, later, listening', queue'⟩ :=
      ih (s := dispatched s b (dispatchSchedule bytes ++ rest)) (listening_dispatched listening) (by simp [dispatched])
    exact ⟨t, first.trans run, decoded_cons listening later, listening', queue'⟩

/-! A frame under H_DECODER. -/

/-- Only the last of the invocations returns a nonzero value, so its tag is the only one. -/
theorem wakeTags_of_last (n k : Nat) : wakeTags n (List.replicate k 0 ++ [1]) = [n + (k + 1)] := by
  induction k generalizing n with
  | zero => rfl
  | succ k ih =>
    have silent : truthy 0 = false := rfl
    simp [List.replicate_succ, wakeTags, silent, ih, Nat.add_comm, Nat.add_left_comm]

/-- Settles O47: over a frame `dec_step` answers 0 for every byte but the last, so the wake signal of the last
invocation is the only one. With RXIFG = 1 at each identification step, OTHERIFG decides nothing (R165). -/
theorem receivedFrameWakesOnce : Obligations.ReceivedFrameWakesOnce := by
  intro s payload rest hi slot idle noByte _ outside room queue
  have unlatched : s.wakeReq = false := wakeReq_eq_false hi (by simp [idle])
  have listening : Listening s := ⟨hi.config, slot, idle, noByte, unlatched⟩
  obtain ⟨t, run, ⟨dec, declog, wakelog, lpm, txlog, txstate⟩, listening', queue'⟩ :=
    dispatchSchedule_completes _ listening queue
  rw [decFold_frameEncode hi.config outside room] at dec declog wakelog lpm
  refine ⟨t, run, declog, dec, ?_, ?_, listening'.idle, listening'.noByte, queue', txlog, txstate⟩
  · have last : (frameEncode s.cfg payload).length - 1 + 1 = (frameEncode s.cfg payload).length := by
      simp [frameEncode]
    rw [wakelog, wakeTags_of_last, last]
  · simpa [truthy] using lpm

end Sys2Proof.Proofs
end

section
/-! SUPPORT. The rows of the decoder as steps of the block (R136 to R145), and frames in sequence (R147, R148). -/

namespace Sys2Proof.Proofs

open Sys2Proof Sys2Proof.Machine

/-! Frames on a stream. -/

/-- Settles O45: the opening delimiter empties the buffer, each escaped byte is appended below the capacity without an
answer, and the closing delimiter delivers (`decFold_frameEncode`). -/
theorem decoderInvertsTheEncoder : Obligations.DecoderInvertsTheEncoder :=
  fun _ _ _ config outside room => decFold_frameEncode config outside room

/-- Outside a frame, bytes other than SYNC change nothing and report nothing (R138). -/
theorem decFold_of_sync_notMem {c : Config} {d : Decoder} (outside : d.state = .hunt) {gap : List Byte}
    (noSync : c.sync ∉ gap) : decFold c d gap = (d, List.replicate gap.length 0, []) := by
  induction gap with
  | nil => rfl
  | cons b gap ih =>
    rw [List.mem_cons, not_or] at noSync
    obtain ⟨notSync, later⟩ := noSync
    have discarded : decStep c d b = ⟨d, 0, none⟩ := by simp [decStep, outside, stepHuntOther, Ne.symm notSync]
    simp [decFold, discarded, ih later, List.replicate_succ]

/-- A frame and the bytes up to the next one: the decoder is outside a frame again and has reported the payload. -/
theorem decFold_frame_gap {c : Config} (config : configOk c = true) {d : Decoder} (outside : d.state = .hunt)
    {payload gap : List Byte} (room : fits c payload) (noSync : c.sync ∉ gap) :
    (decFold c d (frameEncode c payload ++ gap)).1 = ⟨.hunt, false, payload⟩ ∧
      (decFold c d (frameEncode c payload ++ gap)).2.2 = [.frame payload] := by
  have frame := decFold_frameEncode config outside room
  have between := decFold_of_sync_notMem (d := ⟨.hunt, false, payload⟩) rfl noSync
  simp [decFold_append, frame, between]

/-- Settles O46, by induction on the frames: each one with the bytes after it ends outside a frame, where the next one
begins. -/
theorem framesInSequenceAreDelivered : Obligations.FramesInSequenceAreDelivered := by
  intro c d parts config outside each
  induction parts generalizing d with
  | nil => rfl
  | cons part parts ih =>
    obtain ⟨⟨room, noSync⟩, later⟩ := List.forall_mem_cons.mp each
    obtain ⟨state, events⟩ := decFold_frame_gap config outside room noSync
    have rest := ih ⟨.hunt, false, part.1⟩ rfl later
    simp only [List.flatMap_cons, List.map_cons, decFold_append _ _ (_ ++ _), state, events, rest,
      List.singleton_append]

/-! The end of a call of H_DECODER, by what `dec_step` reports (R117, R118, R125). -/

section
variable {s : State}

/-- In a call of H_DECODER, the row of the decoder's state ends the call with its result. -/
theorem decoderTransition_of_call {st : DecState} {b : Byte} (inCall : s.dphase = .dCall) (slot : s.cbslot = 1)
    (inState : s.dec.state = st) (received : s.rxbyte = b) (r : DecResult) :
    decoderTransition st b r s = s.finishDecoder r :=
  decoderTransition_of_called ((decoderCalled_iff s b).mpr ⟨inCall, slot, received⟩) inState r

/-- Nothing is reported, and 0 is returned: the latch is left alone. -/
theorem finishDecoder_silent (slot : s.cbslot = 1) (d : Decoder) :
    s.finishDecoder ⟨d, 0, none⟩ =
      { s with dec := d, retval := 0, cblog := s.cblog ++ [⟨1, s.rxbyte, 0⟩], dphase := .dExit } := by
  simp [State.finishDecoder, State.finishCall, eventStrobes, truthy, slot]

/-- An error is reported, and 0 is returned: the latch is left alone. -/
theorem finishDecoder_frameError (slot : s.cbslot = 1) (d : Decoder) (reason : DecError) :
    s.finishDecoder ⟨d, 0, some (.frameError reason)⟩ =
      { s with
        dec := d
        declog := s.declog ++ [.frameError reason]
        strobes := s.strobes ++ [.decError reason]
        retval := 0, cblog := s.cblog ++ [⟨1, s.rxbyte, 0⟩], dphase := .dExit } := by
  simp [State.finishDecoder, State.finishCall, eventStrobes, truthy, slot]

/-- A frame is delivered, and 1 is returned: the latch is set. -/
theorem finishDecoder_frame (slot : s.cbslot = 1) (d : Decoder) (payload : List Byte) :
    s.finishDecoder ⟨d, 1, some (.frame payload)⟩ =
      { s with
        dec := d
        declog := s.declog ++ [.frame payload]
        strobes := s.strobes ++ [.decFrame payload.length]
        retval := 1, cblog := s.cblog ++ [⟨1, s.rxbyte, 1⟩], wakeReq := true, dphase := .dExit } := by
  simp [State.finishDecoder, State.finishCall, eventStrobes, truthy, slot]

end

/-! The seven rows. -/

/-- Settles O39: both rows are silent. -/
theorem decoderOutsideAFrame : Obligations.DecoderOutsideAFrame := by
  intro s inCall slot inState
  refine ⟨fun isSync => ?sync, fun notSync => ?other⟩
  case sync =>
    rw [exec, execDecHuntSync, decoderTransition_of_call inCall slot inState isSync, stepHuntSync,
      finishDecoder_silent slot]
  case other =>
    rw [exec, execDecHuntOther, if_neg notSync, decoderTransition_of_call inCall slot inState rfl, stepHuntOther,
      finishDecoder_silent slot]

/-- Settles O40: the closing SYNC reports the buffer or its overflow, as DERR says; the other rows are silent. -/
theorem decoderInsideAFrame : Obligations.DecoderInsideAFrame := by
  intro s inCall slot inState
  refine ⟨fun isSync good => ?frame, fun isSync overflow => ?overflow, fun isEscape => ?escape,
    fun notSync notEscape => ?literal⟩
  case frame =>
    rw [exec, execDecDataSync, decoderTransition_of_call inCall slot inState isSync, stepDataSync,
      if_neg (by simp [good]), finishDecoder_frame slot]
  case overflow =>
    rw [exec, execDecDataSync, decoderTransition_of_call inCall slot inState isSync, stepDataSync, if_pos overflow,
      finishDecoder_frameError slot]
  case escape =>
    rw [exec, execDecDataEscape, decoderTransition_of_call inCall slot inState isEscape, stepDataEscape,
      finishDecoder_silent slot]
  case literal =>
    have plain : isReserved s.cfg s.rxbyte = false := plain_iff.mpr ⟨notSync, notEscape⟩
    rw [exec, execDecDataLit, if_neg (by simp [plain]), decoderTransition_of_call inCall slot inState rfl, stepDataLit,
      finishDecoder_silent slot]

/-- Settles O41: SYNC rejects the frame, and the row of an operand is silent. -/
theorem decoderAfterAnEscape : Obligations.DecoderAfterAnEscape := by
  intro s inCall slot inState
  refine ⟨fun isSync => ?sync, fun notSync => ?operand⟩
  case sync =>
    rw [exec, execDecEscSync, decoderTransition_of_call inCall slot inState isSync, stepEscSync,
      finishDecoder_frameError slot]
  case operand =>
    rw [exec, execDecEscOther, if_neg notSync, decoderTransition_of_call inCall slot inState rfl, stepEscOther,
      finishDecoder_silent slot, xmask]

/-! The bounded append (R144). -/

/-- Settles O42: the append tests DERR and the room below the capacity, and each case settles one of the tests. -/
theorem boundedAppend : Obligations.BoundedAppend := by
  intro c d v
  refine ⟨fun noErr below => if_pos ?room, fun full => if_neg fun room => ?noRoom⟩
  case room =>
    simp [noErr, (underCap_iff c _).mpr below]
  case noRoom =>
    simp only [Bool.and_eq_true, Bool.not_eq_true', underCap_iff] at room
    obtain ⟨noErr, below⟩ := room
    rcases full with err | ⟨cap, hcap, atCap⟩
    · simp [noErr] at err
    · exact absurd (below cap hcap) (Nat.not_lt.mpr atCap)

/-! The decoder's return value (R145). -/

/-- Of all the transitions, the delivery of a good frame alone returns 1. -/
theorem decStep_ret_eq_one_iff (c : Config) (d : Decoder) (b : Byte) :
    (decStep c d b).ret = 1 ↔ ∃ payload, (decStep c d b).event = some (.frame payload) := by
  rcases decStep_cases c d b with ⟨-, -, h⟩ | ⟨-, -, h⟩ | ⟨-, -, -, h⟩ | ⟨-, -, -, h⟩ | ⟨-, -, -, h⟩ |
    ⟨-, -, -, h⟩ | ⟨-, -, h⟩ | ⟨-, -, h⟩ <;> simp [h]

theorem decStep_ret_eq_zero_or_one (c : Config) (d : Decoder) (b : Byte) :
    (decStep c d b).ret = 0 ∨ (decStep c d b).ret = 1 :=
  Nat.le_one_iff_eq_zero_or_eq_one.mp (decStep_ret_le_one c d b)

/-- The decoder latches a wake exactly with a return value of 1 (R118). -/
theorem truthy_decStep_ret (c : Config) (d : Decoder) (b : Byte) :
    truthy (decStep c d b).ret = true ↔ (decStep c d b).ret = 1 := by
  rcases decStep_ret_eq_zero_or_one c d b with zero | one
  · simp [zero, truthy]
  · simp [one, truthy]

/-- Settles O44: the latch, clear before the call, holds whether 1 was returned, and DECLOG has gained the event. -/
theorem decoderReturnsOneOnAGoodFrame : Obligations.DecoderReturnsOneOnAGoodFrame := by
  refine ⟨fun c d b => ⟨decStep_ret_eq_one_iff c d b, decStep_ret_eq_zero_or_one c d b⟩,
    fun s inCall slot unlatched => ⟨_, perform_interrupt_of_decoder inCall slot, rfl, ?_⟩⟩
  calc (s.finishDecoder (decStep s.cfg s.dec s.rxbyte)).wakeReq = true
    _ ↔ truthy (decStep s.cfg s.dec s.rxbyte).ret = true := by
        rw [finishDecoder_wakeReq, unlatched, Bool.false_or]
    _ ↔ ∃ payload, (decStep s.cfg s.dec s.rxbyte).event = some (.frame payload) :=
        (truthy_decStep_ret _ _ _).trans (decStep_ret_eq_one_iff _ _ _)
    _ ↔ ∃ payload, (s.finishDecoder (decStep s.cfg s.dec s.rxbyte)).declog = s.declog ++ [.frame payload] := by
        simp only [finishDecoder_declog, List.append_cancel_left_eq, Option.toList_eq_singleton_iff]

end Sys2Proof.Proofs
end

section
/-! SUPPORT. The interrupt context seen from outside: its entry (R164) and exit (R168 to R170), the arrival of a byte
(R174 to R176), and the step of the agent that reads a word (R178). -/

namespace Sys2Proof.Proofs

open Sys2Proof Sys2Proof.Machine

/-! The wake signal (R168 to R170). -/

/-- Only the interrupt exit that finds the latch set touches WAKELOG. -/
theorem move_wakelog {m : Move} {s t : State} (moved : MoveCase m s t) :
    t.wakelog = s.wakelog ∨ (m = .interrupt ∧ s.dphase = .dExit ∧ s.wakeReq = true) := by
  cases moved with
  | leave _ inExit =>
    cases latched : s.wakeReq with
    | true => exact .inr ⟨rfl, inExit, rfl⟩
    | false => exact .inl (by simp [latched])
  | _ => exact .inl rfl

/-- What the signal is: the tag in WAKELOG, the pulse, and the latch and the power mode cleared (R168, R169). -/
structure WakeSent (s t : State) : Prop where
  wakelog : t.wakelog = s.wakelog ++ [s.cblog.length]
  wakeReq : t.wakeReq = false
  lpm : t.lpm = false
  pulse : Strobe.wake ∈ t.strobes

theorem wakeSent_leaveInterrupt {s : State} (latched : s.wakeReq = true) : WakeSent s s.leaveInterrupt where
  wakelog := by simp [latched]
  wakeReq := leaveInterrupt_wakeReq s
  lpm := by simp [latched]
  pulse := by simp [latched]

/-- The tag makes WAKELOG longer. -/
theorem wakelog_ne_of_wakeSent {s t : State} (sent : WakeSent s t) : t.wakelog ≠ s.wakelog := by
  simp [sent.wakelog]

/-- A step sends the signal exactly when it is the interrupt exit with the latch set. -/
theorem step_wakelog {s t : State} (stepped : step s = .next t) :
    (t.wakelog = s.wakelog ∧ ¬ (nextMove s = .interrupt ∧ s.dphase = .dExit ∧ s.wakeReq = true)) ∨
      (WakeSent s t ∧ nextMove s = .interrupt ∧ s.dphase = .dExit ∧ s.wakeReq = true) := by
  obtain ⟨config, moved⟩ := step_cases stepped
  by_cases exits : nextMove s = .interrupt ∧ s.dphase = .dExit ∧ s.wakeReq = true
  · obtain ⟨interrupt, inExit, latched⟩ := exits
    rw [step_eq_perform config, interrupt,
      perform_interrupt_of_exit ((beginStep_dphase s).trans inExit)] at stepped
    cases stepped
    have sent := wakeSent_leaveInterrupt ((beginStep_wakeReq s).trans latched)
    exact .inr ⟨{ sent with wakelog := by simpa using sent.wakelog }, interrupt, inExit, latched⟩
  · refine .inl ⟨?_, exits⟩
    rcases move_wakelog moved with kept | ⟨interrupt, inExit, latched⟩
    · exact kept.trans (beginStep_wakelog s)
    · exact absurd ⟨interrupt, by simpa using inExit, by simpa using latched⟩ exits

/-- Settles O37: in the one kind of step WAKELOG stays and the condition fails, in the other the signal is sent. -/
theorem wakeSignalIsOneShot : Obligations.WakeSignalIsOneShot := by
  intro s t stepped
  rcases step_wakelog stepped with ⟨kept, notExit⟩ | ⟨sent, exits⟩
  · exact ⟨iff_of_false (absurd kept) notExit, absurd kept⟩
  · exact ⟨iff_of_true (wakelog_ne_of_wakeSent sent) exits,
      fun _ => ⟨sent.wakelog, sent.wakeReq, sent.lpm, sent.pulse⟩⟩

/-! Entry and exit (R164, R168). -/

theorem irq_iff (s : State) : s.irq = true ↔ s.rxifg = true ∨ s.otherifg = true := by
  simp [State.irq]

theorem perform_interrupt_of_quiet {s : State} (idle : s.dphase = .dIdle) (quiet : s.irq = false) :
    perform .interrupt s = .next s := by
  simp [perform_interrupt, interruptStep, idle, quiet]

/-- Settles O28: the entry asks for IRQ alone, which is that one of the two flags is 1. -/
theorem interruptEntry : Obligations.InterruptEntry := by
  intro s idle
  refine ⟨fun cause => perform_interrupt_of_idle idle ((irq_iff s).mpr cause), fun noRx noForeign => ?_⟩
  exact perform_interrupt_of_quiet idle (by simp [State.irq, noRx, noForeign])

/-- Settles O34: the move in D_EXIT is the return from the interrupt, which asks for the latch. -/
theorem interruptExit : Obligations.InterruptExit := by
  intro s inExit
  rw [perform_interrupt_of_exit inExit, State.leaveInterrupt]

/-! The arrival of a byte (R174 to R176). -/

theorem perform_rx (s : State) (v draw : Byte) (held : Bool) :
    perform (.rx v draw held) s = .next (receive v draw held s) := rfl

/-- Overrun (R175). -/
theorem receive_of_pending {s : State} (pending : s.rxifg = true) (v draw : Byte) (held : Bool) :
    receive v draw held s = { s with rxbuf := draw } := if_pos pending

/-- Arrival during the interrupt context (R176). -/
theorem receive_of_inIsr {s : State} (noByte : s.rxifg = false) (inside : s.dphase ≠ .dIdle) (v draw : Byte)
    (held : Bool) :
    receive v draw held s = if held = true then { s with rxbuf := v, rxifg := true } else s := by
  simp [receive, noByte, inside]

/-- Settles O49: normal arrival, overrun, and arrival in the interrupt context. -/
theorem byteArrival : Obligations.ByteArrival := by
  intro s v draw held
  refine ⟨fun noByte idle => perform_rx_of_idle idle noByte v draw held, fun pending => ?_,
    fun noByte inside => ?_⟩
  · rw [perform_rx, receive_of_pending pending]
  · rw [perform_rx, receive_of_inIsr noByte inside]

/-! The step of an agent that reads a word (R178). -/

/-- A word that decodes is run, at the state where it has been taken from its port. -/
theorem perform_of_decoded {m : Move} {s : State} {src : Source} {w : Nat} {i : Instr}
    (fetched : fetch m s = some (src, w)) (word : decode s.cfg src w = .ok i) :
    perform m s = exec i (consume src s) := by
  simp only [perform, fetched, word]

/-- Settles O52: the step makes the next move at `beginStep s`, which has the same parameters. -/
theorem stepRunsTheDecodedInstruction : Obligations.StepRunsTheDecodedInstruction := by
  intro s src w i config fetched word
  rw [step_eq_perform config]
  exact perform_of_decoded fetched (by rwa [beginStep_cfg])

end Sys2Proof.Proofs
end

section
/-! SUPPORT. Reset (R195 to R198, R200): what the reset input and the power-on reset leave behind, and the observation
logs, which nothing shortens (R30). -/

namespace Sys2Proof.Proofs

open Sys2Proof Sys2Proof.Machine

/-! The observation logs (R30, R198). -/

/-- Only a call of the decoder writes DECLOG, and it appends the event of its transition (R125, R136). -/
theorem move_declog {m : Move} {s t : State} (moved : MoveCase m s t) :
    t.declog = s.declog ∨
      (s.dphase = .dCall ∧ s.cbslot = hDecoder ∧
        t.declog = s.declog ++ (decStep s.cfg s.dec s.rxbyte).event.toList) := by
  cases moved with
  | decoder _ inCall slot => exact .inr ⟨inCall, slot, rfl⟩
  | leave => exact .inl (leaveInterrupt_declog s)
  | _ => exact .inl rfl

theorem prefix_of_kept_or_appended {α : Type} {old new : List α} (grown : new = old ∨ ∃ more, new = old ++ more) :
    old <+: new := by
  rcases grown with rfl | ⟨more, rfl⟩
  · exact List.prefix_rfl
  · exact List.prefix_append old more

/-- Settles O60: each log is kept by a step or appended to. A reset is among the moves that keep it. -/
theorem logsOnlyGrow : Obligations.LogsOnlyGrow := by
  intro s t stepped
  obtain ⟨-, moved⟩ := step_cases stepped
  have txlog := prefix_of_kept_or_appended ((move_txlog moved).imp_right fun ⟨_, _, b, sent⟩ => ⟨[b], sent⟩)
  have cblog := prefix_of_kept_or_appended ((move_cblog moved).imp_right fun ⟨_, _, called⟩ => ⟨_, called⟩)
  have wakelog := prefix_of_kept_or_appended
    ((step_wakelog stepped).imp And.left fun ⟨sent, _⟩ => ⟨_, sent.wakelog⟩)
  have declog := prefix_of_kept_or_appended ((move_declog moved).imp_right fun ⟨_, _, decoded⟩ => ⟨_, decoded⟩)
  rw [beginStep_txlog] at txlog
  rw [beginStep_cblog] at cblog
  rw [beginStep_declog] at declog
  exact ⟨txlog, cblog, wakelog, declog⟩

/-! The reset input (R200). -/

/-- The reset input asks only that the registers have bits for the values drawn (R196). -/
theorem perform_rst_of_holdOk {s : State} {d : HoldDraw} (ok : holdOk s.cfg d = true) :
    perform (.rst d) s = .next (s.warmReset d) := if_pos ok

/-- Settles O50: the four bounds are the test of the draw, and the next state is `warmReset`. -/
theorem resetAbandonsEverything : Obligations.ResetAbandonsEverything := by
  intro s d base len idx ret
  have ok : holdOk s.cfg d = true := (holdOk_iff s.cfg d).mpr ⟨base, len, idx, ret⟩
  rw [perform_rst_of_holdOk ok]
  rfl

/-! The power-on reset (R195 to R198). -/

/-- Settles O51: `powerOn` takes none of these elements from a draw. -/
theorem powerOnState : Obligations.PowerOnState :=
  fun _ _ _ => ⟨rfl, rfl, rfl, rfl, rfl, rfl, rfl, rfl, rfl, rfl⟩

/-- After the power-on reset no write, no interrupt and no command is in progress and the decoder is empty, so what is
asked of a phase holds vacuously; the widths are those of the draw, and the memory is the environment's. -/
theorem inv_powerOn {c : Config} {d : HoldDraw} {e : EnvDraw} (config : configOk c = true)
    (hold : holdOk c d = true) (canonical : Memory.wf e.mem = true)
    (inside : ∀ cell ∈ e.mem, cell.1 < 2 ^ c.addrW) : (State.powerOn c d e).Inv := by
  obtain ⟨base, len, idx, ret⟩ := (holdOk_iff c d).mp hold
  have fits := decoderFits_empty c .hunt
  exact {
    config := config
    slot := Nat.two_pow_pos _
    ret := ret
    base := base
    len := len
    idx := idx
    memory := canonical
    inside := fun a v listed => inside (a, v) listed
    command := nofun
    range := fun busy => absurd rfl busy
    opening := nofun
    body := nofun
    pair := nofun
    closing := nofun
    awake := nofun
    latch := nofun
    buffer := fits.buffer
    overflow := fits.overflow }

/-- Settles O55: `State.reset` is the power-on reset of the default build with zero draws and an empty memory. -/
theorem resetHasTheInvariant : Obligations.ResetHasTheInvariant := by
  have standard : configOk Config.standard = true := by decide
  have zero : holdOk Config.standard zeroHold = true := by decide
  exact ⟨inv_powerOn standard zero rfl nofun, fun _ _ _ => inv_powerOn⟩

end Sys2Proof.Proofs
end
